-- ==== Sys2Proof/Word.lean ====
section
/-! DEFINITION. The two widths of the core's values: 8-bit registers and memory bytes (R20, R30) and
16-bit SP, PC, pairs and addresses (R22, R24, R25). All values are unsigned (R5). -/

namespace Sys2Proof

/-- An 8-bit value: a register, a memory byte, a port byte, a port number (R20, R30, R31). -/
abbrev Byte := BitVec 8

/-- A 16-bit value: SP, PC, a register pair, an address (R22, R24, R25). -/
abbrev Word := BitVec 16

end Sys2Proof
end

