-- ==== Sys2Proof/Config.lean ====
section
/-! DEFINITION. What an instantiation of the core fixes, and the one free value (R4). The T-state table,
the parameter `TSTATES` of R4, stands in Machine/Timing.lean. -/

namespace Sys2Proof

/-- One event at the port interface, as the host sees it: a `PortRead` with the answer it gave, or a
`PortWrite` with the byte it received (R36, R57). -/
inductive PortEvent where
  | read (port value : Byte)
  | write (port value : Byte)
  deriving DecidableEq, Repr

/-- The size of memory in bytes: addresses 0..0xFFFF (R30, R50). -/
def Config.memSize : Nat := 65536

/-- What a byte of memory reads as that the list of cells in State does not name: a convention of how memory is
written down, and so `MEM_FILL` of `State.reset` (R4, R34). DESIGN CHOICE (log entry 4), unsafe for `State.reset`
alone: the spec leaves `MEM_FILL` open, "commonly 0xFF", and `State.resetWith` takes any. -/
def Config.unlistedByte : Byte := 0xFF

/-- `RESET_PC`: PC at the first step (R34, R280). DESIGN CHOICE (log entry 5), unsafe: the decided default,
which an instantiation may override. -/
def Config.resetPc : Word := 0x0000

/-- The host's answer to a `PortRead` of a port, after the port events so far, where State holds no
scheduled answer: a FREE VALUE (R57: "any value 0..0xFF; the core constrains the answer in no way").
DESIGN CHOICE (log entry 6), safe: nothing can be proved of its value, and since every read adds an
event, two reads of one port need not agree. -/
opaque Config.portAnswer : List PortEvent → Byte → Byte

end Sys2Proof
end

