-- ==== Sys2Proof/Machine/Bits.lean ====
section
/-! DEFINITION. The halves of a 16-bit value, and a bit's number value (R5, R22). -/

namespace Sys2Proof.Machine

/-- `w[15:8]`, the high byte (R5). -/
def hi8 (w : Word) : Byte := w.extractLsb' 8 8

/-- `w[7:0]`, the low byte (R5). -/
def lo8 (w : Word) : Byte := w.extractLsb' 0 8

/-- `hi ++ lo` = 256*hi + lo (R5): the named-first register, or the byte at the higher address, is the
more significant half (R22, R52, R77). -/
def word (hi lo : Byte) : Word := hi ++ lo

/-- A bit as the number 0 or 1, for the carry-in terms of R120 and R121. -/
def bit (b : Bool) : Nat := if b then 1 else 0

end Sys2Proof.Machine
end

