-- ==== Sys2Proof/Machine/State.lean ====
section
/-! DEFINITION. The state of the machine: the core's own state, complete by R32; the outputs of a step, kept
here because the host's outcome has no other place for them (R36); and the host's coming inputs (R9, R57,
R255). -/

namespace Sys2Proof.Machine

/-- The seven 8-bit registers (R20). BC, DE, HL are views of them (R22). -/
structure Regs where
  a : Byte
  b : Byte
  c : Byte
  d : Byte
  e : Byte
  h : Byte
  l : Byte
  deriving DecidableEq, Repr

/-- The five status flags, each stored separately (R26). The flag byte F is a view of them (R28). -/
structure Flags where
  /-- Z, the result is zero -/
  z : Bool
  /-- S, bit 7 of the result -/
  s : Bool
  /-- P, even parity of the result -/
  p : Bool
  /-- CY, carry out of bit 7, or borrow -/
  cy : Bool
  /-- AC, carry out of bit 3, or low-nibble borrow -/
  ac : Bool
  deriving DecidableEq, Repr

/-- Memory as a list of (address, byte) pairs; an address not listed reads as `Config.unlistedByte`. -/
abbrev Memory := List Host.Cell

/-- The one canonical form of a memory: addresses strictly rising and inside the address space, and no
entry equal to what an unlisted address reads as, so that equal memories are equal lists. -/
abbrev Memory.wf (m : Memory) : Prop :=
  m.Pairwise (fun x y => x.1 < y.1) ∧ ∀ x ∈ m, x.1 < Config.memSize ∧ x.2 ≠ Config.unlistedByte

/-- The outputs of a completed step: its T-state count, and the halt signal, 1 exactly when the instruction
was HLT (R36, R283). -/
structure StepReport where
  cycles : Nat
  halt : Bool
  deriving DecidableEq, Repr

/-- What the host does next: call `Step`, or apply `Interrupt(v)` with v in 0..7 (R9, R255). -/
inductive HostAction where
  | step
  | interrupt (v : BitVec 3)
  deriving DecidableEq, Repr

/-- The machine. -/
structure State where
  /-- A, B, C, D, E, H, L (R20) -/
  regs : Regs
  /-- the stack pointer (R24) -/
  sp : Word
  /-- the program counter: between steps the address of the next instruction (R25) -/
  pc : Word
  /-- Z, S, P, CY, AC (R26) -/
  flags : Flags
  /-- IE, the interrupt-enable bit (R29) -/
  ie : Bool
  /-- MEM, 65536 bytes (R30) -/
  mem : Memory
  /-- the outputs of the last action of the host, absent when it was no completed step (R36).
  DESIGN CHOICE (log entry 8), safe: an output kept in State. -/
  report : Option StepReport
  /-- the `PortRead` and `PortWrite` events so far, oldest first (R36, R57).
  DESIGN CHOICE (log entry 9), safe: an output kept in State. -/
  portEvents : List PortEvent
  /-- the host's coming answers to `PortRead`; with none left the answer is the free value
  `Config.portAnswer` (R57). DESIGN CHOICE (log entry 6), safe. -/
  portAnswers : List Byte
  /-- the host's coming actions; with none left it calls `Step` (R9, R255).
  DESIGN CHOICE (log entry 7), unsafe for a statement about a run whose list is empty. -/
  hostActions : List HostAction
  deriving DecidableEq, Repr

/-- Why the machine stops for good (R250, R254). The two other kinds of R250 are unreachable (R252, R253) and
have no constructor (log entry 11). -/
inductive Fault where
  /-- A byte address, a new PC or a new SP outside 0..0xFFFF; it carries that integer. Raised by the fetch of
  any instruction, by a push (PUSH, CALL, taken conditional calls, RST, a delivered interrupt), by a pop (POP,
  RET, taken conditional returns), by LHLD, SHLD and XTHL (R63, R251). It is the spec's own fault: safe. -/
  | addressFault (a : Int)
  deriving DecidableEq, Repr

/-- Why the model gives an instruction no meaning. -/
inductive Refusal where
  /-- An instruction that has no meaning yet; raised by `exec` alone. Safe. No arm answers it now. -/
  | notModelled (mnemonic : String)
  deriving DecidableEq, Repr

/-- The outcome of a step, an instruction or a delivery (R8). -/
abbrev Result := Host.Outcome State Fault Refusal

/-- The machine right after reset (R34, R280): PC and IE as decided there. The registers, SP and the flags are
open there and 0 here (log entries 1, 2, 3: DESIGN CHOICE, unsafe); memory lists nothing, so every byte reads as
`Config.unlistedByte` (log entry 4); no step has reported and no port event has happened; the host's lists are empty
(log entries 6, 7). -/
def State.reset : State where
  regs := { a := 0, b := 0, c := 0, d := 0, e := 0, h := 0, l := 0 }
  sp := 0
  pc := Config.resetPc
  flags := { z := false, s := false, p := false, cy := false, ac := false }
  ie := false
  mem := []
  report := none
  portEvents := []
  portAnswers := []
  hostActions := []

end Sys2Proof.Machine
end

