-- ==== Sys2Proof/Syntax.lean ====
section
/-! DEFINITION. The syntax of the instruction set: one constructor of `Instr` for each row of
spec/opcode_table.json, in the table's order, with the row's operands already turned into names (R70, R71,
R79 to R84). -/

namespace Sys2Proof

/-- A register code other than 6 (R21): B, C, D, E, H, L have codes 0 to 5 and A has code 7. Code 6, the
memory byte at HL, is a row of its own of the table. -/
inductive Reg8 where
  | b | c | d | e | h | l | a
  deriving DecidableEq, Repr

/-- A pair code of LXI, INX, DCX, DAD: BC, DE, HL, SP have codes 0 to 3 (R22). -/
inductive RegPair where
  | bc | de | hl | sp
  deriving DecidableEq, Repr

/-- The pair of STAX and LDAX: BC or DE, opcode bit 4 (R110, R111). -/
inductive IndexPair where
  | bc | de
  deriving DecidableEq, Repr

/-- The instructions. `dst` is a destination register, `src` a source register, `r` the one register operand, `n` the
operand byte `imm8` (R76) or the RST number, `w` the operand word `imm16` (R77), `x` the free bits of an
undocumented alias (R84). A suffix `M` is the row whose operand is the memory byte at HL. -/
inductive Instr where
  /-- `NOP`, `00000000`, R245. -/
  | nop
  /-- `NOP*`, `00xxx000`, R246. -/
  | nopAlias (x : BitVec 3)
  /-- `LXI rp,d16`, `00pp0001`, R105. -/
  | lxi (pp : RegPair) (w : Word)
  /-- `STAX rp`, `000p0010`, R111. -/
  | stax (p : IndexPair)
  /-- `SHLD a16`, `00100010`, R109. -/
  | shld (w : Word)
  /-- `STA a16`, `00110010`, R107. -/
  | sta (w : Word)
  /-- `INX rp`, `00pp0011`, R180. -/
  | inx (pp : RegPair)
  /-- `INR r`, `00ddd100`, R147. -/
  | inrR (r : Reg8)
  /-- `INR M`, `00110100`, R148. -/
  | inrM
  /-- `DCR r`, `00ddd101`, R149. -/
  | dcrR (r : Reg8)
  /-- `DCR M`, `00110101`, R150. -/
  | dcrM
  /-- `MVI r,d8`, `00ddd110`, R103. -/
  | mviR (r : Reg8) (n : Byte)
  /-- `MVI M,d8`, `00110110`, R104. -/
  | mviM (n : Byte)
  /-- `RLC`, `00000111`, R155. -/
  | rlc
  /-- `RRC`, `00001111`, R156. -/
  | rrc
  /-- `RAL`, `00010111`, R157. -/
  | ral
  /-- `RAR`, `00011111`, R158. -/
  | rar
  /-- `DAA`, `00100111`, R151. -/
  | daa
  /-- `CMA`, `00101111`, R152. -/
  | cma
  /-- `STC`, `00110111`, R153. -/
  | stc
  /-- `CMC`, `00111111`, R154. -/
  | cmc
  /-- `DAD rp`, `00pp1001`, R182. -/
  | dad (pp : RegPair)
  /-- `LDAX rp`, `000p1010`, R110. -/
  | ldax (p : IndexPair)
  /-- `LHLD a16`, `00101010`, R108. -/
  | lhld (w : Word)
  /-- `LDA a16`, `00111010`, R106. -/
  | lda (w : Word)
  /-- `DCX rp`, `00pp1011`, R181. -/
  | dcx (pp : RegPair)
  /-- `MOV r1,r2`, `01dddsss`, R100. -/
  | movRR (dst src : Reg8)
  /-- `MOV r,M`, `01ddd110`, R101. -/
  | movRM (dst : Reg8)
  /-- `MOV M,r`, `01110sss`, R102. -/
  | movMR (src : Reg8)
  /-- `HLT`, `01110110`, R244. -/
  | hlt
  /-- `ADD r`, `10000sss`, R123. -/
  | addR (r : Reg8)
  /-- `ADD M`, `10000110`, R124. -/
  | addM
  /-- `ADC r`, `10001sss`, R126. -/
  | adcR (r : Reg8)
  /-- `ADC M`, `10001110`, R127. -/
  | adcM
  /-- `SUB r`, `10010sss`, R129. -/
  | subR (r : Reg8)
  /-- `SUB M`, `10010110`, R130. -/
  | subM
  /-- `SBB r`, `10011sss`, R132. -/
  | sbbR (r : Reg8)
  /-- `SBB M`, `10011110`, R133. -/
  | sbbM
  /-- `ANA r`, `10100sss`, R135. -/
  | anaR (r : Reg8)
  /-- `ANA M`, `10100110`, R136. -/
  | anaM
  /-- `XRA r`, `10101sss`, R138. -/
  | xraR (r : Reg8)
  /-- `XRA M`, `10101110`, R139. -/
  | xraM
  /-- `ORA r`, `10110sss`, R141. -/
  | oraR (r : Reg8)
  /-- `ORA M`, `10110110`, R142. -/
  | oraM
  /-- `CMP r`, `10111sss`, R144. -/
  | cmpR (r : Reg8)
  /-- `CMP M`, `10111110`, R145. -/
  | cmpM
  /-- `RNZ`, `11000000`, R223. -/
  | rnz
  /-- `RZ`, `11001000`, R224. -/
  | rz
  /-- `RNC`, `11010000`, R225. -/
  | rnc
  /-- `RC`, `11011000`, R226. -/
  | rc
  /-- `RPO`, `11100000`, R227. -/
  | rpo
  /-- `RPE`, `11101000`, R228. -/
  | rpe
  /-- `RP`, `11110000`, R229. -/
  | rp
  /-- `RM`, `11111000`, R230. -/
  | rm
  /-- `POP B`, `11000001`, R194. -/
  | popB
  /-- `POP D`, `11010001`, R194. -/
  | popD
  /-- `POP H`, `11100001`, R194. -/
  | popH
  /-- `POP PSW`, `11110001`, R195. -/
  | popPsw
  /-- `JNZ a16`, `11000010`, R203. -/
  | jnz (w : Word)
  /-- `JZ a16`, `11001010`, R204. -/
  | jz (w : Word)
  /-- `JNC a16`, `11010010`, R205. -/
  | jnc (w : Word)
  /-- `JC a16`, `11011010`, R206. -/
  | jc (w : Word)
  /-- `JPO a16`, `11100010`, R207. -/
  | jpo (w : Word)
  /-- `JPE a16`, `11101010`, R208. -/
  | jpe (w : Word)
  /-- `JP a16`, `11110010`, R209. -/
  | jp (w : Word)
  /-- `JM a16`, `11111010`, R210. -/
  | jm (w : Word)
  /-- `JMP a16`, `11000011`, R201. -/
  | jmp (w : Word)
  /-- `JMP* a16`, `11001011`, R202. -/
  | jmpAlias (w : Word)
  /-- `OUT d8`, `11010011`, R241. -/
  | out (n : Byte)
  /-- `IN d8`, `11011011`, R240. -/
  | inp (n : Byte)
  /-- `XTHL`, `11100011`, R196. -/
  | xthl
  /-- `XCHG`, `11101011`, R112. -/
  | xchg
  /-- `DI`, `11110011`, R243. -/
  | di
  /-- `EI`, `11111011`, R242. -/
  | ei
  /-- `CNZ a16`, `11000100`, R213. -/
  | cnz (w : Word)
  /-- `CZ a16`, `11001100`, R214. -/
  | cz (w : Word)
  /-- `CNC a16`, `11010100`, R215. -/
  | cnc (w : Word)
  /-- `CC a16`, `11011100`, R216. -/
  | cc (w : Word)
  /-- `CPO a16`, `11100100`, R217. -/
  | cpo (w : Word)
  /-- `CPE a16`, `11101100`, R218. -/
  | cpe (w : Word)
  /-- `CP a16`, `11110100`, R219. -/
  | cp (w : Word)
  /-- `CM a16`, `11111100`, R220. -/
  | cm (w : Word)
  /-- `PUSH B`, `11000101`, R192. -/
  | pushB
  /-- `PUSH D`, `11010101`, R192. -/
  | pushD
  /-- `PUSH H`, `11100101`, R192. -/
  | pushH
  /-- `PUSH PSW`, `11110101`, R193. -/
  | pushPsw
  /-- `ADI d8`, `11000110`, R125. -/
  | adi (n : Byte)
  /-- `ACI d8`, `11001110`, R128. -/
  | aci (n : Byte)
  /-- `SUI d8`, `11010110`, R131. -/
  | sui (n : Byte)
  /-- `SBI d8`, `11011110`, R134. -/
  | sbi (n : Byte)
  /-- `ANI d8`, `11100110`, R137. -/
  | ani (n : Byte)
  /-- `XRI d8`, `11101110`, R140. -/
  | xri (n : Byte)
  /-- `ORI d8`, `11110110`, R143. -/
  | ori (n : Byte)
  /-- `CPI d8`, `11111110`, R146. -/
  | cpi (n : Byte)
  /-- `RST n`, `11nnn111`, R231. -/
  | rst (n : BitVec 3)
  /-- `RET`, `11001001`, R221. -/
  | ret
  /-- `RET*`, `11011001`, R222. -/
  | retAlias
  /-- `PCHL`, `11101001`, R232. -/
  | pchl
  /-- `SPHL`, `11111001`, R197. -/
  | sphl
  /-- `CALL a16`, `11001101`, R211. -/
  | call (w : Word)
  /-- `CALL* a16`, `11xx1101`, R212. -/
  | callAlias (x : BitVec 2) (w : Word)
  deriving DecidableEq, Repr

end Sys2Proof
end

