-- ==== Sys2Proof/Machine/Timing.lean ====
section
/-! DEFINITION. The T-state table (R284), the default of the parameter `TSTATES` (R4, R283). PRESUMED (log entry
10), unsafe where a core of this design counts otherwise: the spec itself supplies these figures from general
knowledge. No rule reads a count. -/

namespace Sys2Proof.Machine

/-- The T-states of an instruction; `taken` is whether the condition of a conditional instruction held, and
counts for nothing elsewhere (R283). -/
def tstates (i : Instr) (taken : Bool) : Nat :=
  match i with
  | .nop | .nopAlias _ => 4
  | .lxi _ _ => 10
  | .stax _ | .ldax _ => 7
  | .shld _ | .lhld _ => 16
  | .sta _ | .lda _ => 13
  | .inx _ | .dcx _ => 5
  | .inrR _ | .dcrR _ => 5
  | .inrM | .dcrM => 10
  | .mviR _ _ => 7
  | .mviM _ => 10
  | .rlc | .rrc | .ral | .rar => 4
  | .daa | .cma | .stc | .cmc => 4
  | .dad _ => 10
  | .movRR _ _ => 5
  | .movRM _ | .movMR _ => 7
  | .hlt => 7
  | .addR _ | .adcR _ | .subR _ | .sbbR _ | .anaR _ | .xraR _ | .oraR _ | .cmpR _ => 4
  | .addM | .adcM | .subM | .sbbM | .anaM | .xraM | .oraM | .cmpM => 7
  | .adi _ | .aci _ | .sui _ | .sbi _ | .ani _ | .xri _ | .ori _ | .cpi _ => 7
  | .rnz | .rz | .rnc | .rc | .rpo | .rpe | .rp | .rm => if taken then 11 else 5
  | .popB | .popD | .popH | .popPsw => 10
  | .jnz _ | .jz _ | .jnc _ | .jc _ | .jpo _ | .jpe _ | .jp _ | .jm _ => 10
  | .jmp _ | .jmpAlias _ => 10
  | .cnz _ | .cz _ | .cnc _ | .cc _ | .cpo _ | .cpe _ | .cp _ | .cm _ => if taken then 17 else 11
  | .pushB | .pushD | .pushH | .pushPsw => 11
  | .call _ | .callAlias _ _ => 17
  | .ret | .retAlias => 10
  | .rst _ => 11
  | .xchg => 4
  | .xthl => 18
  | .sphl | .pchl => 5
  | .inp _ | .out _ => 10
  | .ei | .di => 4

end Sys2Proof.Machine
end

