-- ==== Sys2Proof/Machine/Ops.lean ====
section
/-! DEFINITION. The named operations over the state: field updates, memory (R51, R52), the checked 16-bit
range (R6, R63), the stack (R190, R191), the ports (R57), the outputs of a step (R36), taking an interrupt (R256)
and the return from it (R260), and the host's next action (R9). -/

namespace Sys2Proof.Machine

/-! ### Field updates -/

def State.setRegs (s : State) (v : Regs) : State := { s with regs := v }

def State.setSp (s : State) (v : Word) : State := { s with sp := v }

def State.setPc (s : State) (v : Word) : State := { s with pc := v }

def State.setFlags (s : State) (v : Flags) : State := { s with flags := v }

def State.setIe (s : State) (v : Bool) : State := { s with ie := v }

def State.setMem (s : State) (v : Memory) : State := { s with mem := v }

def State.setReport (s : State) (v : Option StepReport) : State := { s with report := v }

def State.setPortEvents (s : State) (v : List PortEvent) : State := { s with portEvents := v }

def State.setPortAnswers (s : State) (v : List Byte) : State := { s with portAnswers := v }

def State.setHostActions (s : State) (v : List HostAction) : State := { s with hostActions := v }

/-! ### Memory as a list of cells -/

/-- The byte at an address: its entry, or the fill byte. -/
def memGet (m : Memory) (a : Nat) : Byte :=
  match m with
  | [] => Config.unlistedByte
  | x :: rest => if x.1 = a then x.2 else memGet rest a

/-- Puts an entry in its place, over one that is there. -/
def memInsert (m : Memory) (a : Nat) (v : Byte) : Memory :=
  match m with
  | [] => [(a, v)]
  | x :: rest =>
    if a < x.1 then (a, v) :: x :: rest
    else if x.1 = a then (a, v) :: rest
    else x :: memInsert rest a v

/-- Writes a byte: an entry, or none where the byte is what an unlisted address reads as. -/
def memSet (m : Memory) (a : Nat) (v : Byte) : Memory :=
  if v = Config.unlistedByte then m.filter (fun x => x.1 != a) else memInsert m a v

/-! ### Memory of the machine (R50 to R53) -/

/-- The byte at an address of the address space. -/
def State.byteAt (s : State) (a : Word) : Byte := memGet s.mem a.toNat

/-- Writes the byte at an address of the address space. -/
def State.setByte (s : State) (a : Word) (v : Byte) : State := s.setMem (memSet s.mem a.toNat v)

/-- `chk16(x)` (R6): x when 0 <= x <= 0xFFFF, otherwise `AddressFault(x)`. -/
def chk16 (x : Int) : Except Fault Word :=
  match x with
  | .ofNat n => if n < Config.memSize then .ok (BitVec.ofNat 16 n) else .error (.addressFault x)
  | .negSucc _ => .error (.addressFault x)

/-- `MemRead(addr, 1)` (R51): any integer address, outside 0..0xFFFF a fault. -/
def memRead1 (a : Int) (s : State) : Except Fault Byte :=
  match chk16 a with
  | .ok x => .ok (s.byteAt x)
  | .error f => .error f

/-- `MemWrite(addr, 1, v)` (R51). -/
def memWrite1 (a : Int) (v : Byte) (s : State) : Except Fault State :=
  match chk16 a with
  | .ok x => .ok (s.setByte x v)
  | .error f => .error f

/-- `MemRead(addr, 2)` (R52): the byte at the lower address is the low byte. -/
def memRead2 (a : Int) (s : State) : Except Fault Word :=
  match memRead1 a s, memRead1 (a + 1) s with
  | .ok lo, .ok hi => .ok (word hi lo)
  | .error f, _ => .error f
  | .ok _, .error f => .error f

/-- `MemWrite(addr, 2, w)` (R52): low byte first; both addresses are checked before any byte is written. -/
def memWrite2 (a : Int) (w : Word) (s : State) : Except Fault State :=
  match chk16 a, chk16 (a + 1) with
  | .ok x, .ok y => .ok ((s.setByte x (lo8 w)).setByte y (hi8 w))
  | .error f, _ => .error f
  | .ok _, .error f => .error f

/-! ### The stack (R190, R191) -/

/-- `push16(w)` (R190): SP - 2 is checked, the low byte goes to the new SP, the high byte to the new SP + 1. -/
def push16 (w : Word) (s : State) : Except Fault State :=
  match chk16 ((s.sp.toNat : Int) - 2) with
  | .error f => .error f
  | .ok a =>
    match memWrite1 a.toNat (lo8 w) s with
    | .error f => .error f
    | .ok s1 =>
      match memWrite1 ((a.toNat : Int) + 1) (hi8 w) s1 with
      | .error f => .error f
      | .ok s2 => .ok (s2.setSp a)

/-- `pop16()` (R191): the word at SP, low byte at SP, then SP + 2, each address checked in turn. -/
def pop16 (s : State) : Except Fault (Word × State) :=
  match memRead1 s.sp.toNat s with
  | .error f => .error f
  | .ok lo =>
    match memRead1 ((s.sp.toNat : Int) + 1) s with
    | .error f => .error f
    | .ok hi =>
      match chk16 ((s.sp.toNat : Int) + 2) with
      | .error f => .error f
      | .ok a => .ok (word hi lo, s.setSp a)

/-! ### Control transfer -/

/-- The fixed address 8*n of RST n and of interrupt vector n (R56, R231, R256). -/
def restartAddr (n : BitVec 3) : Word := BitVec.ofNat 16 (8 * n.toNat)

/-- `push16(PC); pc <- target`: CALL, a taken conditional call, RST (R211, R231). -/
def callTo (target : Word) (s : State) : Except Fault State :=
  match push16 s.pc s with
  | .error f => .error f
  | .ok t => .ok (t.setPc target)

/-- `pc <- pop16()`: RET, a taken conditional return, and the return from an interrupt, which does not touch
IE (R221, R260). -/
def returnFromStack (s : State) : Except Fault State :=
  match pop16 s with
  | .error f => .error f
  | .ok (w, t) => .ok (t.setPc w)

/-- `Interrupt(v)`, applied between two steps (R256): no effect at all when IE = 0; otherwise IE is cleared, PC
pushed, and PC is 8*v. -/
def interrupt (v : BitVec 3) (s : State) : Result :=
  if s.ie then
    match callTo (restartAddr v) (s.setIe false) with
    | .error f => .fault f
    | .ok t => .next t
  else .next s

/-! ### Ports (R57) -/

/-- The host's answer to a `PortRead`: the next one it has scheduled, else a free value (log entry 6). -/
def nextAnswer (port : Byte) (s : State) : Byte :=
  match s.portAnswers with
  | v :: _ => v
  | [] => Config.portAnswer s.portEvents port

/-- `PortRead(p)` (R57): one event; the core keeps no copy of the answer. -/
def portRead (port : Byte) (s : State) : Byte × State :=
  (nextAnswer port s,
    (s.setPortEvents (s.portEvents ++ [.read port (nextAnswer port s)])).setPortAnswers s.portAnswers.tail)

/-- `PortWrite(p, v)` (R57): one event, no other effect. -/
def portWrite (port v : Byte) (s : State) : State := s.setPortEvents (s.portEvents ++ [.write port v])

/-! ### The outputs of a step (R36, R283) -/

/-- An instruction that completed: its outputs, and its next state. `taken` is whether the condition of a
conditional instruction held. -/
def complete (i : Instr) (taken : Bool) (s : State) : Result :=
  .next (s.setReport (some { cycles := tstates i taken, halt := false }))

/-- An instruction whose operation may fault: the fault, or the completed step. -/
def completeOrFault (i : Instr) (taken : Bool) (x : Except Fault State) : Result :=
  match x with
  | .error f => .fault f
  | .ok s => complete i taken s

/-- HLT's own outputs: `halt <- 1` (R244). -/
def completeHalt (i : Instr) (s : State) : Result :=
  .next (s.setReport (some { cycles := tstates i false, halt := true }))

/-! ### The host's next action (R9) -/

/-- The host's next action, and the state without it and without the outputs of the action before; with
nothing scheduled the host calls `Step` (log entry 7). -/
def nextAction (s : State) : HostAction × State :=
  match s.hostActions with
  | [] => (.step, s.setReport none)
  | x :: rest => (x, (s.setHostActions rest).setReport none)

end Sys2Proof.Machine
end

