-- ==== Sys2Proof/Machine/Operands.lean ====
section
/-! DEFINITION. The operand forms: the registers by code (R21), the memory byte at HL, the pair views (R22) and
the PSW view (R23, R28). -/

namespace Sys2Proof.Machine

/-! ### Registers (R20, R21) -/

def Regs.get (g : Regs) (r : Reg8) : Byte :=
  match r with
  | .a => g.a
  | .b => g.b
  | .c => g.c
  | .d => g.d
  | .e => g.e
  | .h => g.h
  | .l => g.l

def Regs.set (g : Regs) (r : Reg8) (v : Byte) : Regs :=
  match r with
  | .a => { g with a := v }
  | .b => { g with b := v }
  | .c => { g with c := v }
  | .d => { g with d := v }
  | .e => { g with e := v }
  | .h => { g with h := v }
  | .l => { g with l := v }

/-- `R8[c]` for a register (R21). -/
def State.reg (s : State) (r : Reg8) : Byte := s.regs.get r

/-- `R8[c] <- v` for a register (R21). -/
def State.setReg (s : State) (r : Reg8) (v : Byte) : State := s.setRegs (s.regs.set r v)

/-! ### Pairs (R22) -/

/-- The pair views by name; SP is a register of its own in slot 3 (R22). -/
def State.pair (s : State) (pp : RegPair) : Word :=
  match pp with
  | .bc => word s.regs.b s.regs.c
  | .de => word s.regs.d s.regs.e
  | .hl => word s.regs.h s.regs.l
  | .sp => s.sp

/-- `RP[c] <- w`: the high byte to the first-named register, the low byte to the second (R22). -/
def State.setPair (s : State) (pp : RegPair) (w : Word) : State :=
  match pp with
  | .bc => (s.setReg .b (hi8 w)).setReg .c (lo8 w)
  | .de => (s.setReg .d (hi8 w)).setReg .e (lo8 w)
  | .hl => (s.setReg .h (hi8 w)).setReg .l (lo8 w)
  | .sp => s.setSp w

/-- `H ++ L` (R22). -/
def State.hl (s : State) : Word := s.pair .hl

/-- The address STAX and LDAX use: BC or DE (R110, R111). -/
def State.indexAddr (s : State) (p : IndexPair) : Word :=
  match p with
  | .bc => s.pair .bc
  | .de => s.pair .de

/-! ### The memory operand M (R21) -/

/-- `R8[6]`: the byte at HL (R21). -/
def State.memOperand (s : State) : Byte := s.byteAt s.hl

/-- `R8[6] <- v`: the byte at HL; no register changes (R21). -/
def State.setMemOperand (s : State) (v : Byte) : State := s.setByte s.hl v

/-! ### The flag byte and PSW (R23, R28) -/

/-- `F = S ++ Z ++ 0 ++ AC ++ 0 ++ P ++ 1 ++ CY` (R28). -/
def packF (f : Flags) : Byte :=
  BitVec.ofBool f.s ++ BitVec.ofBool f.z ++ 0#1 ++ BitVec.ofBool f.ac ++ 0#1 ++ BitVec.ofBool f.p ++ 1#1
    ++ BitVec.ofBool f.cy

/-- Unpacking F: bits 5, 3 and 1 are ignored (R28). -/
def unpackF (v : Byte) : Flags :=
  { s := v.getLsbD 7, z := v.getLsbD 6, ac := v.getLsbD 4, p := v.getLsbD 2, cy := v.getLsbD 0 }

/-- `RPQ[3]`, the PSW view: A is the high byte, F the low byte (R23). -/
def State.psw (s : State) : Word := word s.regs.a (packF s.flags)

/-- `RPQ[3] <- w` (R23). -/
def State.setPsw (s : State) (w : Word) : State := (s.setReg .a (hi8 w)).setFlags (unpackF (lo8 w))

end Sys2Proof.Machine
end

