-- ==== Sys2Proof/Machine/Flags.lean ====
section
/-! DEFINITION. Every flag computation: Z, S, P of a result (R27), the addition, subtraction and logic paths of
the ALU (R120, R121, R122), INR and DCR (R147, R149), DAD (R182), DAA (R151), the rotates (R155 to R158) and the
condition codes (R200). -/

namespace Sys2Proof.Machine

/-- The number of 1 bits (R5). -/
def popcount (v : Byte) : Nat := (List.range 8).countP (fun k => v.getLsbD k)

/-- `zsp(r)`: Z, S and P of an 8-bit result; P is 1 on an even number of 1 bits (R27). -/
def zsp (r : Byte) (f : Flags) : Flags :=
  { f with z := r == 0, s := r.getLsbD 7, p := popcount r % 2 == 0 }

/-! ### The addition path (R120) -/

/-- `t[7:0]` of t = A + v + cin. -/
def addResult (a v : Byte) (cin : Bool) : Byte := BitVec.ofNat 8 (a.toNat + v.toNat + bit cin)

/-- CY is the carry out of bit 7, AC the carry out of bit 3, of the whole three-term sum. -/
def addFlags (a v : Byte) (cin : Bool) (f : Flags) : Flags :=
  zsp (addResult a v cin)
    { f with
      cy := decide (a.toNat + v.toNat + bit cin > 0xFF)
      ac := decide (a.toNat % 16 + v.toNat % 16 + bit cin > 0xF) }

/-- `alu_add(v, cin)`: writes A, Z, S, P, CY, AC. -/
def aluAdd (v : Byte) (cin : Bool) (s : State) : State :=
  (s.setReg .a (addResult s.regs.a v cin)).setFlags (addFlags s.regs.a v cin s.flags)

/-! ### The subtraction path (R121) -/

/-- `wrap8(A - v - bin)`. -/
def subResult (a v : Byte) (bin : Bool) : Byte := BitVec.ofInt 8 ((a.toNat : Int) - v.toNat - bit bin)

/-- CY is the borrow, AC the low-nibble borrow; v + bin is not truncated. -/
def subFlags (a v : Byte) (bin : Bool) (f : Flags) : Flags :=
  zsp (subResult a v bin)
    { f with
      cy := decide (a.toNat < v.toNat + bit bin)
      ac := decide (a.toNat % 16 < v.toNat % 16 + bit bin) }

/-- `alu_sub(v, bin, true)`: writes A, Z, S, P, CY, AC. -/
def aluSub (v : Byte) (bin : Bool) (s : State) : State :=
  (s.setReg .a (subResult s.regs.a v bin)).setFlags (subFlags s.regs.a v bin s.flags)

/-- `alu_sub(v, 0, false)`: the flags only; A is not written. -/
def aluCmp (v : Byte) (s : State) : State := s.setFlags (subFlags s.regs.a v false s.flags)

/-! ### Logic (R122) -/

/-- Z, S, P of the result; CY and AC are cleared. -/
def logicFlags (r : Byte) (f : Flags) : Flags := zsp r { f with cy := false, ac := false }

/-- `alu_logic(r)`: writes A, Z, S, P, CY, AC. -/
def aluLogic (r : Byte) (s : State) : State := (s.setReg .a r).setFlags (logicFlags r s.flags)

/-! ### Increment and decrement (R147, R149) -/

/-- The flags of INR of x: CY is kept, AC is the carry out of bit 3. -/
def incFlags (x : Byte) (f : Flags) : Flags := zsp (x + 1) { f with ac := x.toNat % 16 == 15 }

/-- The flags of DCR of x: CY is kept, AC is the low-nibble borrow. -/
def decFlags (x : Byte) (f : Flags) : Flags := zsp (x - 1) { f with ac := x.toNat % 16 == 0 }

/-! ### Pair addition (R182) -/

/-- `HL <- wrap16(HL + v)`; CY is the carry out of bit 15; no other flag. -/
def addToHL (v : Word) (s : State) : State :=
  (s.setPair .hl (s.hl + v)).setFlags { s.flags with cy := decide (s.hl.toNat + v.toNat > 0xFFFF) }

/-! ### Decimal adjust (R151) -/

/-- The first line of DAA: add 6 if the low nibble of A is above 9 or AC is set. -/
def daaLow (s : State) : State :=
  if s.regs.a.toNat % 16 > 9 || s.flags.ac then aluAdd 0x06 false s else s

/-- The second line of DAA: add 0x60 if the high nibble of A is above 9 or CY is set. -/
def daaHigh (s : State) : State :=
  if s.regs.a.toNat / 16 > 9 || s.flags.cy then aluAdd 0x60 false s else s

/-- DAA: the second line reads A and CY as the first left them (R151). -/
def aluDaa (s : State) : State := daaHigh (daaLow s)

/-! ### Rotates and the carry (R153 to R158) -/

/-- Writes CY alone. -/
def State.setCarry (s : State) (v : Bool) : State := s.setFlags { s.flags with cy := v }

/-- `A <- A[6:0] ++ b; CY <- A[7]` (R155, R157). -/
def rotateLeft (b : Bool) (s : State) : State :=
  (s.setReg .a (s.regs.a.extractLsb' 0 7 ++ BitVec.ofBool b)).setCarry (s.regs.a.getLsbD 7)

/-- `A <- b ++ A[7:1]; CY <- A[0]` (R156, R158). -/
def rotateRight (b : Bool) (s : State) : State :=
  (s.setReg .a (BitVec.ofBool b ++ s.regs.a.extractLsb' 1 7)).setCarry (s.regs.a.getLsbD 0)

/-! ### Condition codes (R200) -/

/-- `cond(ccc)`: bits [2:1] select Z, CY, P or S; the condition holds when that flag equals bit [0]. -/
def condHolds (ccc : BitVec 3) (f : Flags) : Bool :=
  match ccc.extractLsb' 1 2 with
  | 0 => f.z == ccc.getLsbD 0
  | 1 => f.cy == ccc.getLsbD 0
  | 2 => f.p == ccc.getLsbD 0
  | 3 => f.s == ccc.getLsbD 0

end Sys2Proof.Machine
end

