-- ==== Sys2Proof/Machine/Alu.lean ====
section
/-! DEFINITION. The 8-bit arithmetic, logic, rotate and flag instructions (R120 to R159). Each runs with PC already past
the instruction (R78); CY as a carry-in is read before it is written. -/

namespace Sys2Proof.Machine

/-- ADD r (R123): `alu_add(R8[sss], 0)`. -/
def execAddR (r : Reg8) (s : State) : Result :=
  complete (.addR r) false (aluAdd (s.reg r) false s)

/-- ADD M (R124): `alu_add(MemRead(H ++ L, 1), 0)`. -/
def execAddM (s : State) : Result :=
  complete .addM false (aluAdd s.memOperand false s)

/-- ADI d8 (R125): `alu_add(imm8, 0)`. -/
def execAdi (n : Byte) (s : State) : Result :=
  complete (.adi n) false (aluAdd n false s)

/-- ADC r (R126): `alu_add(R8[sss], CY)`. -/
def execAdcR (r : Reg8) (s : State) : Result :=
  complete (.adcR r) false (aluAdd (s.reg r) s.flags.cy s)

/-- ADC M (R127): `alu_add(MemRead(H ++ L, 1), CY)`. -/
def execAdcM (s : State) : Result :=
  complete .adcM false (aluAdd s.memOperand s.flags.cy s)

/-- ACI d8 (R128): `alu_add(imm8, CY)`. -/
def execAci (n : Byte) (s : State) : Result :=
  complete (.aci n) false (aluAdd n s.flags.cy s)

/-- SUB r (R129): `alu_sub(R8[sss], 0, true)`. -/
def execSubR (r : Reg8) (s : State) : Result :=
  complete (.subR r) false (aluSub (s.reg r) false s)

/-- SUB M (R130): `alu_sub(MemRead(H ++ L, 1), 0, true)`. -/
def execSubM (s : State) : Result :=
  complete .subM false (aluSub s.memOperand false s)

/-- SUI d8 (R131): `alu_sub(imm8, 0, true)`. -/
def execSui (n : Byte) (s : State) : Result :=
  complete (.sui n) false (aluSub n false s)

/-- SBB r (R132): `alu_sub(R8[sss], CY, true)`. -/
def execSbbR (r : Reg8) (s : State) : Result :=
  complete (.sbbR r) false (aluSub (s.reg r) s.flags.cy s)

/-- SBB M (R133): `alu_sub(MemRead(H ++ L, 1), CY, true)`. -/
def execSbbM (s : State) : Result :=
  complete .sbbM false (aluSub s.memOperand s.flags.cy s)

/-- SBI d8 (R134): `alu_sub(imm8, CY, true)`. -/
def execSbi (n : Byte) (s : State) : Result :=
  complete (.sbi n) false (aluSub n s.flags.cy s)

/-- ANA r (R135): `alu_logic(A & R8[sss])`. -/
def execAnaR (r : Reg8) (s : State) : Result :=
  complete (.anaR r) false (aluLogic (s.regs.a &&& s.reg r) s)

/-- ANA M (R136): `alu_logic(A & MemRead(H ++ L, 1))`. -/
def execAnaM (s : State) : Result :=
  complete .anaM false (aluLogic (s.regs.a &&& s.memOperand) s)

/-- ANI d8 (R137): `alu_logic(A & imm8)`. -/
def execAni (n : Byte) (s : State) : Result :=
  complete (.ani n) false (aluLogic (s.regs.a &&& n) s)

/-- XRA r (R138): `alu_logic(A ^ R8[sss])`. -/
def execXraR (r : Reg8) (s : State) : Result :=
  complete (.xraR r) false (aluLogic (s.regs.a ^^^ s.reg r) s)

/-- XRA M (R139): `alu_logic(A ^ MemRead(H ++ L, 1))`. -/
def execXraM (s : State) : Result :=
  complete .xraM false (aluLogic (s.regs.a ^^^ s.memOperand) s)

/-- XRI d8 (R140): `alu_logic(A ^ imm8)`. -/
def execXri (n : Byte) (s : State) : Result :=
  complete (.xri n) false (aluLogic (s.regs.a ^^^ n) s)

/-- ORA r (R141): `alu_logic(A | R8[sss])`. -/
def execOraR (r : Reg8) (s : State) : Result :=
  complete (.oraR r) false (aluLogic (s.regs.a ||| s.reg r) s)

/-- ORA M (R142): `alu_logic(A | MemRead(H ++ L, 1))`. -/
def execOraM (s : State) : Result :=
  complete .oraM false (aluLogic (s.regs.a ||| s.memOperand) s)

/-- ORI d8 (R143): `alu_logic(A | imm8)`. -/
def execOri (n : Byte) (s : State) : Result :=
  complete (.ori n) false (aluLogic (s.regs.a ||| n) s)

/-- CMP r (R144): `alu_sub(R8[sss], 0, false)`. -/
def execCmpR (r : Reg8) (s : State) : Result :=
  complete (.cmpR r) false (aluCmp (s.reg r) s)

/-- CMP M (R145): `alu_sub(MemRead(H ++ L, 1), 0, false)`. -/
def execCmpM (s : State) : Result :=
  complete .cmpM false (aluCmp s.memOperand s)

/-- CPI d8 (R146): `alu_sub(imm8, 0, false)`. -/
def execCpi (n : Byte) (s : State) : Result :=
  complete (.cpi n) false (aluCmp n s)

/-- INR r (R147): the register plus 1 modulo 256; Z, S, P, AC written, CY kept. -/
def execInrR (r : Reg8) (s : State) : Result :=
  complete (.inrR r) false ((s.setReg r (s.reg r + 1)).setFlags (incFlags (s.reg r) s.flags))

/-- INR M (R148): the byte at HL plus 1 modulo 256; Z, S, P, AC written, CY kept. -/
def execInrM (s : State) : Result :=
  complete .inrM false ((s.setMemOperand (s.memOperand + 1)).setFlags (incFlags s.memOperand s.flags))

/-- DCR r (R149): the register minus 1 modulo 256; Z, S, P, AC written, CY kept. -/
def execDcrR (r : Reg8) (s : State) : Result :=
  complete (.dcrR r) false ((s.setReg r (s.reg r - 1)).setFlags (decFlags (s.reg r) s.flags))

/-- DCR M (R150): the byte at HL minus 1 modulo 256; Z, S, P, AC written, CY kept. -/
def execDcrM (s : State) : Result :=
  complete .dcrM false ((s.setMemOperand (s.memOperand - 1)).setFlags (decFlags s.memOperand s.flags))

/-- DAA (R151): two conditional additions through the add path. -/
def execDaa (s : State) : Result :=
  complete .daa false (aluDaa s)

/-- CMA (R152): `A <- A ^ 0xFF`. -/
def execCma (s : State) : Result :=
  complete .cma false (s.setReg .a (s.regs.a ^^^ 0xFF))

/-- STC (R153): `CY <- 1`. -/
def execStc (s : State) : Result :=
  complete .stc false (s.setCarry true)

/-- CMC (R154): `CY <- 1 - CY`. -/
def execCmc (s : State) : Result :=
  complete .cmc false (s.setCarry (!s.flags.cy))

/-- RLC (R155): left by one, bit 7 to bit 0 and to CY. -/
def execRlc (s : State) : Result :=
  complete .rlc false (rotateLeft (s.regs.a.getLsbD 7) s)

/-- RRC (R156): right by one, bit 0 to bit 7 and to CY. -/
def execRrc (s : State) : Result :=
  complete .rrc false (rotateRight (s.regs.a.getLsbD 0) s)

/-- RAL (R157): left by one through CY. -/
def execRal (s : State) : Result :=
  complete .ral false (rotateLeft s.flags.cy s)

/-- RAR (R158): right by one through CY. -/
def execRar (s : State) : Result :=
  complete .rar false (rotateRight s.flags.cy s)

end Sys2Proof.Machine
end

