-- ==== Sys2Proof/Machine/Control.lean ====
section
/-! DEFINITION. The control transfer instructions (R201 to R232). PC read inside an operation is the address of the
instruction that follows in memory (R78). -/

namespace Sys2Proof.Machine

/-- A conditional jump: `if cond(ccc) then pc <- imm16`, else PC stays at the next instruction (R203 to R210). -/
def jumpIf (i : Instr) (ccc : BitVec 3) (w : Word) (s : State) : Result :=
  if condHolds ccc s.flags then complete i true (s.setPc w) else complete i false s

/-- A conditional call: `if cond(ccc) then (push16(PC); pc <- imm16)`, else nothing (R213 to R220). -/
def callIf (i : Instr) (ccc : BitVec 3) (w : Word) (s : State) : Result :=
  if condHolds ccc s.flags then completeOrFault i true (callTo w s) else complete i false s

/-- A conditional return: `if cond(ccc) then pc <- pop16()`, else nothing (R223 to R230). -/
def returnIf (i : Instr) (ccc : BitVec 3) (s : State) : Result :=
  if condHolds ccc s.flags then completeOrFault i true (returnFromStack s) else complete i false s

/-- JMP a16 (R201): `pc <- imm16`. -/
def execJmp (w : Word) (s : State) : Result :=
  complete (.jmp w) false (s.setPc w)

/-- JMP* a16 (R202): `pc <- imm16`, exactly JMP. -/
def execJmpAlias (w : Word) (s : State) : Result :=
  complete (.jmpAlias w) false (s.setPc w)

/-- JNZ a16 (R203): `if Z = 0 then pc <- imm16`. -/
def execJnz (w : Word) (s : State) : Result :=
  jumpIf (.jnz w) 0b000 w s

/-- JZ a16 (R204): `if Z = 1 then pc <- imm16`. -/
def execJz (w : Word) (s : State) : Result :=
  jumpIf (.jz w) 0b001 w s

/-- JNC a16 (R205): `if CY = 0 then pc <- imm16`. -/
def execJnc (w : Word) (s : State) : Result :=
  jumpIf (.jnc w) 0b010 w s

/-- JC a16 (R206): `if CY = 1 then pc <- imm16`. -/
def execJc (w : Word) (s : State) : Result :=
  jumpIf (.jc w) 0b011 w s

/-- JPO a16 (R207): `if P = 0 then pc <- imm16`. -/
def execJpo (w : Word) (s : State) : Result :=
  jumpIf (.jpo w) 0b100 w s

/-- JPE a16 (R208): `if P = 1 then pc <- imm16`. -/
def execJpe (w : Word) (s : State) : Result :=
  jumpIf (.jpe w) 0b101 w s

/-- JP a16 (R209): `if S = 0 then pc <- imm16`. -/
def execJp (w : Word) (s : State) : Result :=
  jumpIf (.jp w) 0b110 w s

/-- JM a16 (R210): `if S = 1 then pc <- imm16`. -/
def execJm (w : Word) (s : State) : Result :=
  jumpIf (.jm w) 0b111 w s

/-- CALL a16 (R211): `push16(PC); pc <- imm16`. -/
def execCall (w : Word) (s : State) : Result :=
  completeOrFault (.call w) false (callTo w s)

/-- CALL* a16 (R212): `push16(PC); pc <- imm16`, exactly CALL. -/
def execCallAlias (x : BitVec 2) (w : Word) (s : State) : Result :=
  completeOrFault (.callAlias x w) false (callTo w s)

/-- CNZ a16 (R213): `if Z = 0 then (push16(PC); pc <- imm16)`. -/
def execCnz (w : Word) (s : State) : Result :=
  callIf (.cnz w) 0b000 w s

/-- CZ a16 (R214): `if Z = 1 then (push16(PC); pc <- imm16)`. -/
def execCz (w : Word) (s : State) : Result :=
  callIf (.cz w) 0b001 w s

/-- CNC a16 (R215): `if CY = 0 then (push16(PC); pc <- imm16)`. -/
def execCnc (w : Word) (s : State) : Result :=
  callIf (.cnc w) 0b010 w s

/-- CC a16 (R216): `if CY = 1 then (push16(PC); pc <- imm16)`. -/
def execCc (w : Word) (s : State) : Result :=
  callIf (.cc w) 0b011 w s

/-- CPO a16 (R217): `if P = 0 then (push16(PC); pc <- imm16)`. -/
def execCpo (w : Word) (s : State) : Result :=
  callIf (.cpo w) 0b100 w s

/-- CPE a16 (R218): `if P = 1 then (push16(PC); pc <- imm16)`. -/
def execCpe (w : Word) (s : State) : Result :=
  callIf (.cpe w) 0b101 w s

/-- CP a16 (R219): `if S = 0 then (push16(PC); pc <- imm16)`. -/
def execCp (w : Word) (s : State) : Result :=
  callIf (.cp w) 0b110 w s

/-- CM a16 (R220): `if S = 1 then (push16(PC); pc <- imm16)`. -/
def execCm (w : Word) (s : State) : Result :=
  callIf (.cm w) 0b111 w s

/-- RET (R221): `pc <- pop16()`. -/
def execRet (s : State) : Result :=
  completeOrFault .ret false (returnFromStack s)

/-- RET* (R222): `pc <- pop16()`, exactly RET. -/
def execRetAlias (s : State) : Result :=
  completeOrFault .retAlias false (returnFromStack s)

/-- RNZ (R223): `if Z = 0 then pc <- pop16()`. -/
def execRnz (s : State) : Result :=
  returnIf .rnz 0b000 s

/-- RZ (R224): `if Z = 1 then pc <- pop16()`. -/
def execRz (s : State) : Result :=
  returnIf .rz 0b001 s

/-- RNC (R225): `if CY = 0 then pc <- pop16()`. -/
def execRnc (s : State) : Result :=
  returnIf .rnc 0b010 s

/-- RC (R226): `if CY = 1 then pc <- pop16()`. -/
def execRc (s : State) : Result :=
  returnIf .rc 0b011 s

/-- RPO (R227): `if P = 0 then pc <- pop16()`. -/
def execRpo (s : State) : Result :=
  returnIf .rpo 0b100 s

/-- RPE (R228): `if P = 1 then pc <- pop16()`. -/
def execRpe (s : State) : Result :=
  returnIf .rpe 0b101 s

/-- RP (R229): `if S = 0 then pc <- pop16()`. -/
def execRp (s : State) : Result :=
  returnIf .rp 0b110 s

/-- RM (R230): `if S = 1 then pc <- pop16()`. -/
def execRm (s : State) : Result :=
  returnIf .rm 0b111 s

/-- RST n (R231): `push16(PC); pc <- 8 * nnn`, whatever IE is. -/
def execRst (n : BitVec 3) (s : State) : Result :=
  completeOrFault (.rst n) false (callTo (restartAddr n) s)

/-- PCHL (R232): `pc <- H ++ L`. -/
def execPchl (s : State) : Result :=
  complete .pchl false (s.setPc s.hl)

end Sys2Proof.Machine
end

