-- ==== Sys2Proof/Machine/DataTransfer.lean ====
section
/-! DEFINITION. The data transfer instructions (R100 to R112). None writes a flag; each runs with PC already past the
instruction (R78). -/

namespace Sys2Proof.Machine

/-- MOV r1,r2 (R100): `R8[ddd] <- R8[sss]`. -/
def execMovRR (dst src : Reg8) (s : State) : Result :=
  complete (.movRR dst src) false (s.setReg dst (s.reg src))

/-- MOV r,M (R101): `R8[ddd] <- MemRead(H ++ L, 1)`, through the old HL. -/
def execMovRM (dst : Reg8) (s : State) : Result :=
  complete (.movRM dst) false (s.setReg dst s.memOperand)

/-- MOV M,r (R102): `MemWrite(H ++ L, 1, R8[sss])`. -/
def execMovMR (src : Reg8) (s : State) : Result :=
  complete (.movMR src) false (s.setMemOperand (s.reg src))

/-- MVI r,d8 (R103): `R8[ddd] <- imm8`. -/
def execMviR (r : Reg8) (n : Byte) (s : State) : Result :=
  complete (.mviR r n) false (s.setReg r n)

/-- MVI M,d8 (R104): `MemWrite(H ++ L, 1, imm8)`. -/
def execMviM (n : Byte) (s : State) : Result :=
  complete (.mviM n) false (s.setMemOperand n)

/-- LXI rp,d16 (R105): `RP[pp] <- imm16`. -/
def execLxi (pp : RegPair) (w : Word) (s : State) : Result :=
  complete (.lxi pp w) false (s.setPair pp w)

/-- LDA a16 (R106): `A <- MemRead(imm16, 1)`. -/
def execLda (w : Word) (s : State) : Result :=
  complete (.lda w) false (s.setReg .a (s.byteAt w))

/-- STA a16 (R107): `MemWrite(imm16, 1, A)`. -/
def execSta (w : Word) (s : State) : Result :=
  complete (.sta w) false (s.setByte w s.regs.a)

/-- LHLD a16 (R108): `w <- MemRead(imm16, 2); L <- w[7:0]; H <- w[15:8]`; a fault writes neither. -/
def execLhld (w : Word) (s : State) : Result :=
  match memRead2 w.toNat s with
  | .error f => .fault f
  | .ok v => complete (.lhld w) false (s.setPair .hl v)

/-- SHLD a16 (R109): `MemWrite(imm16, 2, H ++ L)`. -/
def execShld (w : Word) (s : State) : Result :=
  completeOrFault (.shld w) false (memWrite2 w.toNat s.hl s)

/-- LDAX rp (R110): `A <- MemRead(RP[p], 1)`. -/
def execLdax (p : IndexPair) (s : State) : Result :=
  complete (.ldax p) false (s.setReg .a (s.byteAt (s.indexAddr p)))

/-- STAX rp (R111): `MemWrite(RP[p], 1, A)`. -/
def execStax (p : IndexPair) (s : State) : Result :=
  complete (.stax p) false (s.setByte (s.indexAddr p) s.regs.a)

/-- XCHG (R112): HL and DE change places. -/
def execXchg (s : State) : Result :=
  complete .xchg false ((s.setPair .hl (s.pair .de)).setPair .de (s.pair .hl))

end Sys2Proof.Machine
end

