-- ==== Sys2Proof/Machine/IoControl.lean ====
section
/-! DEFINITION. Input, output and machine control (R240 to R246). -/

namespace Sys2Proof.Machine

/-- IN d8 (R240): `A <- PortRead(imm8)`, one event. -/
def execInp (n : Byte) (s : State) : Result :=
  complete (.inp n) false ((portRead n s).2.setReg .a (portRead n s).1)

/-- OUT d8 (R241): `PortWrite(imm8, A)`, one event. -/
def execOut (n : Byte) (s : State) : Result :=
  complete (.out n) false (portWrite n s.regs.a s)

/-- EI (R242): `IE <- 1`, at once. -/
def execEi (s : State) : Result :=
  complete .ei false (s.setIe true)

/-- DI (R243): `IE <- 0`, at once. -/
def execDi (s : State) : Result :=
  complete .di false (s.setIe false)

/-- HLT (R244): the halt output of this step, and nothing else; no state remembers it. -/
def execHlt (s : State) : Result :=
  completeHalt .hlt s

/-- NOP (R245): nothing. -/
def execNop (s : State) : Result :=
  complete .nop false s

/-- NOP* (R246): nothing, exactly NOP. -/
def execNopAlias (x : BitVec 3) (s : State) : Result :=
  complete (.nopAlias x) false s

end Sys2Proof.Machine
end

