-- ==== Sys2Proof/Machine/PairArith.lean ====
section
/-! DEFINITION. The register-pair arithmetic (R180 to R182), the only place where a 16-bit value wraps (R63). -/

namespace Sys2Proof.Machine

/-- INX rp (R180): `RP[pp] <- wrap16(RP[pp] + 1)`; no flag. -/
def execInx (pp : RegPair) (s : State) : Result :=
  complete (.inx pp) false (s.setPair pp (s.pair pp + 1))

/-- DCX rp (R181): `RP[pp] <- wrap16(RP[pp] - 1)`; no flag. -/
def execDcx (pp : RegPair) (s : State) : Result :=
  complete (.dcx pp) false (s.setPair pp (s.pair pp - 1))

/-- DAD rp (R182): `HL <- wrap16(HL + RP[pp])`, CY the carry out of bit 15. -/
def execDad (pp : RegPair) (s : State) : Result :=
  complete (.dad pp) false (addToHL (s.pair pp) s)

end Sys2Proof.Machine
end

