-- ==== Sys2Proof/Machine/Stack.lean ====
section
/-! DEFINITION. The stack instructions (R192 to R197) over `push16` and `pop16` (R190, R191). -/

namespace Sys2Proof.Machine

/-- PUSH B (R192): `push16(RPQ[pp])`. -/
def execPushB (s : State) : Result :=
  completeOrFault .pushB false (push16 (s.pair .bc) s)

/-- PUSH D (R192): `push16(RPQ[pp])`. -/
def execPushD (s : State) : Result :=
  completeOrFault .pushD false (push16 (s.pair .de) s)

/-- PUSH H (R192): `push16(RPQ[pp])`. -/
def execPushH (s : State) : Result :=
  completeOrFault .pushH false (push16 (s.pair .hl) s)

/-- PUSH PSW (R193): `push16(A ++ F)`. -/
def execPushPsw (s : State) : Result :=
  completeOrFault .pushPsw false (push16 s.psw s)

/-- POP B (R194): `RPQ[pp] <- pop16()`. -/
def execPopB (s : State) : Result :=
  match pop16 s with
  | .error f => .fault f
  | .ok (w, t) => complete .popB false (t.setPair .bc w)

/-- POP D (R194): `RPQ[pp] <- pop16()`. -/
def execPopD (s : State) : Result :=
  match pop16 s with
  | .error f => .fault f
  | .ok (w, t) => complete .popD false (t.setPair .de w)

/-- POP H (R194): `RPQ[pp] <- pop16()`. -/
def execPopH (s : State) : Result :=
  match pop16 s with
  | .error f => .fault f
  | .ok (w, t) => complete .popH false (t.setPair .hl w)

/-- POP PSW (R195): A and the five flags from the popped word. -/
def execPopPsw (s : State) : Result :=
  match pop16 s with
  | .error f => .fault f
  | .ok (w, t) => complete .popPsw false (t.setPsw w)

/-- XTHL (R196): HL and the word at SP change places; both bytes are read before either is written. -/
def execXthl (s : State) : Result :=
  match memRead2 s.sp.toNat s with
  | .error f => .fault f
  | .ok w =>
    match memWrite2 s.sp.toNat s.hl s with
    | .error f => .fault f
    | .ok t => complete .xthl false (t.setPair .hl w)

/-- SPHL (R197): `SP <- H ++ L`. -/
def execSphl (s : State) : Result :=
  complete .sphl false (s.setSp s.hl)

end Sys2Proof.Machine
end

