-- ==== Sys2Proof/Machine/Dispatch.lean ====
section
/-! DEFINITION. The dispatch: one arm per constructor of Instr, in the table's order, each one call of its meaning. -/

namespace Sys2Proof.Machine

def exec (i : Instr) (s : State) : Host.Outcome State Fault Refusal :=
  match i with
  | .nop => Sys2Proof.Machine.execNop s
  | .nopAlias x => Sys2Proof.Machine.execNopAlias x s
  | .lxi pp w => Sys2Proof.Machine.execLxi pp w s
  | .stax p => Sys2Proof.Machine.execStax p s
  | .shld w => Sys2Proof.Machine.execShld w s
  | .sta w => Sys2Proof.Machine.execSta w s
  | .inx pp => Sys2Proof.Machine.execInx pp s
  | .inrR r => Sys2Proof.Machine.execInrR r s
  | .inrM => Sys2Proof.Machine.execInrM s
  | .dcrR r => Sys2Proof.Machine.execDcrR r s
  | .dcrM => Sys2Proof.Machine.execDcrM s
  | .mviR r n => Sys2Proof.Machine.execMviR r n s
  | .mviM n => Sys2Proof.Machine.execMviM n s
  | .rlc => Sys2Proof.Machine.execRlc s
  | .rrc => Sys2Proof.Machine.execRrc s
  | .ral => Sys2Proof.Machine.execRal s
  | .rar => Sys2Proof.Machine.execRar s
  | .daa => Sys2Proof.Machine.execDaa s
  | .cma => Sys2Proof.Machine.execCma s
  | .stc => Sys2Proof.Machine.execStc s
  | .cmc => Sys2Proof.Machine.execCmc s
  | .dad pp => Sys2Proof.Machine.execDad pp s
  | .ldax p => Sys2Proof.Machine.execLdax p s
  | .lhld w => Sys2Proof.Machine.execLhld w s
  | .lda w => Sys2Proof.Machine.execLda w s
  | .dcx pp => Sys2Proof.Machine.execDcx pp s
  | .movRR dst src => Sys2Proof.Machine.execMovRR dst src s
  | .movRM dst => Sys2Proof.Machine.execMovRM dst s
  | .movMR src => Sys2Proof.Machine.execMovMR src s
  | .hlt => Sys2Proof.Machine.execHlt s
  | .addR r => Sys2Proof.Machine.execAddR r s
  | .addM => Sys2Proof.Machine.execAddM s
  | .adcR r => Sys2Proof.Machine.execAdcR r s
  | .adcM => Sys2Proof.Machine.execAdcM s
  | .subR r => Sys2Proof.Machine.execSubR r s
  | .subM => Sys2Proof.Machine.execSubM s
  | .sbbR r => Sys2Proof.Machine.execSbbR r s
  | .sbbM => Sys2Proof.Machine.execSbbM s
  | .anaR r => Sys2Proof.Machine.execAnaR r s
  | .anaM => Sys2Proof.Machine.execAnaM s
  | .xraR r => Sys2Proof.Machine.execXraR r s
  | .xraM => Sys2Proof.Machine.execXraM s
  | .oraR r => Sys2Proof.Machine.execOraR r s
  | .oraM => Sys2Proof.Machine.execOraM s
  | .cmpR r => Sys2Proof.Machine.execCmpR r s
  | .cmpM => Sys2Proof.Machine.execCmpM s
  | .rnz => Sys2Proof.Machine.execRnz s
  | .rz => Sys2Proof.Machine.execRz s
  | .rnc => Sys2Proof.Machine.execRnc s
  | .rc => Sys2Proof.Machine.execRc s
  | .rpo => Sys2Proof.Machine.execRpo s
  | .rpe => Sys2Proof.Machine.execRpe s
  | .rp => Sys2Proof.Machine.execRp s
  | .rm => Sys2Proof.Machine.execRm s
  | .popB => Sys2Proof.Machine.execPopB s
  | .popD => Sys2Proof.Machine.execPopD s
  | .popH => Sys2Proof.Machine.execPopH s
  | .popPsw => Sys2Proof.Machine.execPopPsw s
  | .jnz w => Sys2Proof.Machine.execJnz w s
  | .jz w => Sys2Proof.Machine.execJz w s
  | .jnc w => Sys2Proof.Machine.execJnc w s
  | .jc w => Sys2Proof.Machine.execJc w s
  | .jpo w => Sys2Proof.Machine.execJpo w s
  | .jpe w => Sys2Proof.Machine.execJpe w s
  | .jp w => Sys2Proof.Machine.execJp w s
  | .jm w => Sys2Proof.Machine.execJm w s
  | .jmp w => Sys2Proof.Machine.execJmp w s
  | .jmpAlias w => Sys2Proof.Machine.execJmpAlias w s
  | .out n => Sys2Proof.Machine.execOut n s
  | .inp n => Sys2Proof.Machine.execInp n s
  | .xthl => Sys2Proof.Machine.execXthl s
  | .xchg => Sys2Proof.Machine.execXchg s
  | .di => Sys2Proof.Machine.execDi s
  | .ei => Sys2Proof.Machine.execEi s
  | .cnz w => Sys2Proof.Machine.execCnz w s
  | .cz w => Sys2Proof.Machine.execCz w s
  | .cnc w => Sys2Proof.Machine.execCnc w s
  | .cc w => Sys2Proof.Machine.execCc w s
  | .cpo w => Sys2Proof.Machine.execCpo w s
  | .cpe w => Sys2Proof.Machine.execCpe w s
  | .cp w => Sys2Proof.Machine.execCp w s
  | .cm w => Sys2Proof.Machine.execCm w s
  | .pushB => Sys2Proof.Machine.execPushB s
  | .pushD => Sys2Proof.Machine.execPushD s
  | .pushH => Sys2Proof.Machine.execPushH s
  | .pushPsw => Sys2Proof.Machine.execPushPsw s
  | .adi n => Sys2Proof.Machine.execAdi n s
  | .aci n => Sys2Proof.Machine.execAci n s
  | .sui n => Sys2Proof.Machine.execSui n s
  | .sbi n => Sys2Proof.Machine.execSbi n s
  | .ani n => Sys2Proof.Machine.execAni n s
  | .xri n => Sys2Proof.Machine.execXri n s
  | .ori n => Sys2Proof.Machine.execOri n s
  | .cpi n => Sys2Proof.Machine.execCpi n s
  | .rst n => Sys2Proof.Machine.execRst n s
  | .ret => Sys2Proof.Machine.execRet s
  | .retAlias => Sys2Proof.Machine.execRetAlias s
  | .pchl => Sys2Proof.Machine.execPchl s
  | .sphl => Sys2Proof.Machine.execSphl s
  | .call w => Sys2Proof.Machine.execCall w s
  | .callAlias x w => Sys2Proof.Machine.execCallAlias x w s

end Sys2Proof.Machine
end

