-- ==== Sys2Proof/WellFormed.lean ====
section
/-! DEFINITION. Which terms of `Instr` are instructions: the two alias rows of the table that leave out one
value of their free bits (R84, R246, R212). Every other operand is already of exactly the values its field
can take (R71, R76, R77: operand bytes are unrestricted, R85). -/

namespace Sys2Proof

/-- The instruction is one the opcode map holds: `00xxx000` is the alias of NOP only for xxx != 000 (000 is
NOP itself), and `11xx1101` the alias of CALL only for xx != 00 (00 is CALL itself). -/
def Instr.wf : Instr → Bool
  | .nopAlias x => x != 0
  | .callAlias x _ => x != 0
  | _ => true

end Sys2Proof
end

