-- ==== Sys2Proof/Decode.lean ====
section
/-! DEFINITION. Decoding and encoding (R70 to R87). The first byte alone decides the instruction and its
length; `instrOf` is total over the 256 first bytes and follows the four group tables R79 to R82. The encoder
is written from the same tables: a row's bit pattern with its fields filled in. -/

namespace Sys2Proof

open Sys2Proof.Machine

/-! ### Fields of the opcode byte (R71) -/

/-- `class` = opcode[7:6]. -/
def opClass (op : Byte) : BitVec 2 := op.extractLsb' 6 2

/-- opcode[5:3]: `ddd`, `ccc`, `nnn` or `ooo`. -/
def opMid (op : Byte) : BitVec 3 := op.extractLsb' 3 3

/-- opcode[2:0]: `sss` or a fixed sub-opcode. -/
def opLow (op : Byte) : BitVec 3 := op.extractLsb' 0 3

/-- `pp` = opcode[5:4]. -/
def opPair (op : Byte) : BitVec 2 := op.extractLsb' 4 2

/-- opcode[3], which splits a row of pair forms in two (R71). -/
def opBit3 (op : Byte) : Bool := op.getLsbD 3

/-! ### Codes (R21, R22) -/

/-- The register a 3-bit code names; code 6, the memory byte at HL, gives none (R21). -/
def regOfCode (c : BitVec 3) : Option Reg8 :=
  match c with
  | 0 => some .b
  | 1 => some .c
  | 2 => some .d
  | 3 => some .e
  | 4 => some .h
  | 5 => some .l
  | 6 => none
  | 7 => some .a

/-- The 3-bit code of a register (R21). -/
def Reg8.code : Reg8 → BitVec 3
  | .b => 0
  | .c => 1
  | .d => 2
  | .e => 3
  | .h => 4
  | .l => 5
  | .a => 7

/-- The register code of the memory byte at HL (R21). -/
def codeM : BitVec 3 := 6

/-- The pair a 2-bit code names, with SP in slot 3 (R22). -/
def pairOfCode (c : BitVec 2) : RegPair :=
  match c with
  | 0 => .bc
  | 1 => .de
  | 2 => .hl
  | 3 => .sp

/-- The 2-bit code of a pair (R22). -/
def RegPair.code : RegPair → BitVec 2
  | .bc => 0
  | .de => 1
  | .hl => 2
  | .sp => 3

/-- Opcode bit 4 of STAX and LDAX: 0 = BC, 1 = DE (R110, R111). -/
def IndexPair.code : IndexPair → BitVec 1
  | .bc => 0
  | .de => 1

/-! ### Decoding -/

/-- Class 00, 0x00 to 0x3F (R79), with the NOP aliases of R84. -/
def instrOfClass0 (op b1 b2 : Byte) : Instr :=
  match opLow op with
  | 0 => if opMid op = 0 then .nop else .nopAlias (opMid op)
  | 1 => if opBit3 op then .dad (pairOfCode (opPair op)) else .lxi (pairOfCode (opPair op)) (word b2 b1)
  | 2 =>
    match opMid op with
    | 0 => .stax .bc
    | 1 => .ldax .bc
    | 2 => .stax .de
    | 3 => .ldax .de
    | 4 => .shld (word b2 b1)
    | 5 => .lhld (word b2 b1)
    | 6 => .sta (word b2 b1)
    | 7 => .lda (word b2 b1)
  | 3 => if opBit3 op then .dcx (pairOfCode (opPair op)) else .inx (pairOfCode (opPair op))
  | 4 => match regOfCode (opMid op) with
    | some r => .inrR r
    | none => .inrM
  | 5 => match regOfCode (opMid op) with
    | some r => .dcrR r
    | none => .dcrM
  | 6 => match regOfCode (opMid op) with
    | some r => .mviR r b1
    | none => .mviM b1
  | 7 =>
    match opMid op with
    | 0 => .rlc
    | 1 => .rrc
    | 2 => .ral
    | 3 => .rar
    | 4 => .daa
    | 5 => .cma
    | 6 => .stc
    | 7 => .cmc

/-- Class 01, 0x40 to 0x7F (R80): MOV, and HLT where both codes are 6. -/
def instrOfClass1 (op : Byte) : Instr :=
  match regOfCode (opMid op), regOfCode (opLow op) with
  | some dst, some src => .movRR dst src
  | some dst, none => .movRM dst
  | none, some src => .movMR src
  | none, none => .hlt

/-- Class 10, 0x80 to 0xBF (R81): the eight ALU operations, `ooo` in the document's order, on the operand
`sss` names. -/
def instrOfClass2 (op : Byte) : Instr :=
  match opMid op, regOfCode (opLow op) with
  | 0, some r => .addR r
  | 0, none => .addM
  | 1, some r => .adcR r
  | 1, none => .adcM
  | 2, some r => .subR r
  | 2, none => .subM
  | 3, some r => .sbbR r
  | 3, none => .sbbM
  | 4, some r => .anaR r
  | 4, none => .anaM
  | 5, some r => .xraR r
  | 5, none => .xraM
  | 6, some r => .oraR r
  | 6, none => .oraM
  | 7, some r => .cmpR r
  | 7, none => .cmpM

/-- Class 11, 0xC0 to 0xFF (R82), with the aliases of JMP, RET and CALL of R84. -/
def instrOfClass3 (op b1 b2 : Byte) : Instr :=
  match opLow op with
  | 0 =>
    match opMid op with
    | 0 => .rnz
    | 1 => .rz
    | 2 => .rnc
    | 3 => .rc
    | 4 => .rpo
    | 5 => .rpe
    | 6 => .rp
    | 7 => .rm
  | 1 =>
    match opMid op with
    | 0 => .popB
    | 1 => .ret
    | 2 => .popD
    | 3 => .retAlias
    | 4 => .popH
    | 5 => .pchl
    | 6 => .popPsw
    | 7 => .sphl
  | 2 =>
    match opMid op with
    | 0 => .jnz (word b2 b1)
    | 1 => .jz (word b2 b1)
    | 2 => .jnc (word b2 b1)
    | 3 => .jc (word b2 b1)
    | 4 => .jpo (word b2 b1)
    | 5 => .jpe (word b2 b1)
    | 6 => .jp (word b2 b1)
    | 7 => .jm (word b2 b1)
  | 3 =>
    match opMid op with
    | 0 => .jmp (word b2 b1)
    | 1 => .jmpAlias (word b2 b1)
    | 2 => .out b1
    | 3 => .inp b1
    | 4 => .xthl
    | 5 => .xchg
    | 6 => .di
    | 7 => .ei
  | 4 =>
    match opMid op with
    | 0 => .cnz (word b2 b1)
    | 1 => .cz (word b2 b1)
    | 2 => .cnc (word b2 b1)
    | 3 => .cc (word b2 b1)
    | 4 => .cpo (word b2 b1)
    | 5 => .cpe (word b2 b1)
    | 6 => .cp (word b2 b1)
    | 7 => .cm (word b2 b1)
  | 5 =>
    match opMid op with
    | 0 => .pushB
    | 1 => .call (word b2 b1)
    | 2 => .pushD
    | 3 => .callAlias 1 (word b2 b1)
    | 4 => .pushH
    | 5 => .callAlias 2 (word b2 b1)
    | 6 => .pushPsw
    | 7 => .callAlias 3 (word b2 b1)
  | 6 =>
    match opMid op with
    | 0 => .adi b1
    | 1 => .aci b1
    | 2 => .sui b1
    | 3 => .sbi b1
    | 4 => .ani b1
    | 5 => .xri b1
    | 6 => .ori b1
    | 7 => .cpi b1
  | 7 => .rst (opMid op)

/-- The instruction with first byte `op` and operand bytes `b1`, `b2`; bytes the format does not have are
not looked at. `imm8` = b1 (R76), `imm16` = b2 ++ b1 (R77). Total over all first bytes (R83, R85). -/
def instrOf (op b1 b2 : Byte) : Instr :=
  match opClass op with
  | 0 => instrOfClass0 op b1 b2
  | 1 => instrOfClass1 op
  | 2 => instrOfClass2 op
  | 3 => instrOfClass3 op b1 b2

/-- How many bytes an instruction has: format B1, B2 or B3 (R70). -/
def Instr.size : Instr → Nat
  | .mviR _ _ | .mviM _ | .adi _ | .aci _ | .sui _ | .sbi _ | .ani _ | .xri _ | .ori _ | .cpi _
  | .inp _ | .out _ => 2
  | .lxi _ _ | .lda _ | .sta _ | .lhld _ | .shld _ | .jmp _ | .jmpAlias _ | .jnz _ | .jz _ | .jnc _ | .jc _
  | .jpo _ | .jpe _ | .jp _ | .jm _ | .call _ | .callAlias _ _ | .cnz _ | .cz _ | .cnc _ | .cc _ | .cpo _
  | .cpe _ | .cp _ | .cm _ => 3
  | _ => 1

/-- The length an opcode byte announces; it does not depend on the operand bytes (R70). -/
def opLength (op : Byte) : Nat := (instrOf op 0 0).size

/-- Why a list of bytes holds no whole instruction. No first byte is illegal (R85), so these are the only
reasons. -/
inductive DecodeError where
  /-- the list is empty: there is no opcode byte -/
  | noOpcode
  /-- the opcode announces more operand bytes than the list holds -/
  | missingOperand (op : Byte)
  deriving DecidableEq, Repr

/-- Reads one instruction from the front of a list of bytes, and gives it with the bytes after it (R70). -/
def decode : List Byte → Except DecodeError (Instr × List Byte)
  | [] => .error .noOpcode
  | op :: rest =>
    match opLength op, rest with
    | 1, _ => .ok (instrOf op 0 0, rest)
    | 2, b1 :: rest' => .ok (instrOf op b1 0, rest')
    | 3, b1 :: b2 :: rest' => .ok (instrOf op b1 b2, rest')
    | _, _ => .error (.missingOperand op)

/-! ### Encoding -/

/-- `cc ddd sss`: an opcode byte from its class, bits 5:3 and bits 2:0 (R71). -/
def opByte (cls : BitVec 2) (mid low : BitVec 3) : Byte := cls ++ mid ++ low

/-- `cc pp f ssss`: an opcode byte of a pair form, from its class, `pp` and the low nibble (R71). -/
def pairByte (cls pp : BitVec 2) (low : BitVec 4) : Byte := cls ++ pp ++ low

/-- The opcode byte of an instruction: its row's bit pattern with the fields filled in (R79 to R84). -/
def Instr.opcode : Instr → Byte
  | .nop => 0b00000000
  | .nopAlias x => opByte 0b00 x 0b000
  | .lxi pp _ => pairByte 0b00 pp.code 0b0001
  | .stax p => pairByte 0b00 (0#1 ++ p.code) 0b0010
  | .shld _ => 0b00100010
  | .sta _ => 0b00110010
  | .inx pp => pairByte 0b00 pp.code 0b0011
  | .inrR r => opByte 0b00 r.code 0b100
  | .inrM => 0b00110100
  | .dcrR r => opByte 0b00 r.code 0b101
  | .dcrM => 0b00110101
  | .mviR r _ => opByte 0b00 r.code 0b110
  | .mviM _ => 0b00110110
  | .rlc => 0b00000111
  | .rrc => 0b00001111
  | .ral => 0b00010111
  | .rar => 0b00011111
  | .daa => 0b00100111
  | .cma => 0b00101111
  | .stc => 0b00110111
  | .cmc => 0b00111111
  | .dad pp => pairByte 0b00 pp.code 0b1001
  | .ldax p => pairByte 0b00 (0#1 ++ p.code) 0b1010
  | .lhld _ => 0b00101010
  | .lda _ => 0b00111010
  | .dcx pp => pairByte 0b00 pp.code 0b1011
  | .movRR dst src => opByte 0b01 dst.code src.code
  | .movRM dst => opByte 0b01 dst.code codeM
  | .movMR r => opByte 0b01 codeM r.code
  | .hlt => 0b01110110
  | .addR r => opByte 0b10 0b000 r.code
  | .addM => opByte 0b10 0b000 codeM
  | .adcR r => opByte 0b10 0b001 r.code
  | .adcM => opByte 0b10 0b001 codeM
  | .subR r => opByte 0b10 0b010 r.code
  | .subM => opByte 0b10 0b010 codeM
  | .sbbR r => opByte 0b10 0b011 r.code
  | .sbbM => opByte 0b10 0b011 codeM
  | .anaR r => opByte 0b10 0b100 r.code
  | .anaM => opByte 0b10 0b100 codeM
  | .xraR r => opByte 0b10 0b101 r.code
  | .xraM => opByte 0b10 0b101 codeM
  | .oraR r => opByte 0b10 0b110 r.code
  | .oraM => opByte 0b10 0b110 codeM
  | .cmpR r => opByte 0b10 0b111 r.code
  | .cmpM => opByte 0b10 0b111 codeM
  | .rnz => opByte 0b11 0b000 0b000
  | .rz => opByte 0b11 0b001 0b000
  | .rnc => opByte 0b11 0b010 0b000
  | .rc => opByte 0b11 0b011 0b000
  | .rpo => opByte 0b11 0b100 0b000
  | .rpe => opByte 0b11 0b101 0b000
  | .rp => opByte 0b11 0b110 0b000
  | .rm => opByte 0b11 0b111 0b000
  | .popB => 0b11000001
  | .popD => 0b11010001
  | .popH => 0b11100001
  | .popPsw => 0b11110001
  | .jnz _ => opByte 0b11 0b000 0b010
  | .jz _ => opByte 0b11 0b001 0b010
  | .jnc _ => opByte 0b11 0b010 0b010
  | .jc _ => opByte 0b11 0b011 0b010
  | .jpo _ => opByte 0b11 0b100 0b010
  | .jpe _ => opByte 0b11 0b101 0b010
  | .jp _ => opByte 0b11 0b110 0b010
  | .jm _ => opByte 0b11 0b111 0b010
  | .jmp _ => 0b11000011
  | .jmpAlias _ => 0b11001011
  | .out _ => 0b11010011
  | .inp _ => 0b11011011
  | .xthl => 0b11100011
  | .xchg => 0b11101011
  | .di => 0b11110011
  | .ei => 0b11111011
  | .cnz _ => opByte 0b11 0b000 0b100
  | .cz _ => opByte 0b11 0b001 0b100
  | .cnc _ => opByte 0b11 0b010 0b100
  | .cc _ => opByte 0b11 0b011 0b100
  | .cpo _ => opByte 0b11 0b100 0b100
  | .cpe _ => opByte 0b11 0b101 0b100
  | .cp _ => opByte 0b11 0b110 0b100
  | .cm _ => opByte 0b11 0b111 0b100
  | .pushB => 0b11000101
  | .pushD => 0b11010101
  | .pushH => 0b11100101
  | .pushPsw => 0b11110101
  | .adi _ => opByte 0b11 0b000 0b110
  | .aci _ => opByte 0b11 0b001 0b110
  | .sui _ => opByte 0b11 0b010 0b110
  | .sbi _ => opByte 0b11 0b011 0b110
  | .ani _ => opByte 0b11 0b100 0b110
  | .xri _ => opByte 0b11 0b101 0b110
  | .ori _ => opByte 0b11 0b110 0b110
  | .cpi _ => opByte 0b11 0b111 0b110
  | .rst n => opByte 0b11 n 0b111
  | .ret => 0b11001001
  | .retAlias => 0b11011001
  | .pchl => 0b11101001
  | .sphl => 0b11111001
  | .call _ => 0b11001101
  | .callAlias x _ => pairByte 0b11 x 0b1101

/-- The operand bytes of an instruction, in memory order: none, `imm8`, or the low and then the high byte
of `imm16` (R70, R76, R77). -/
def Instr.operandBytes : Instr → List Byte
  | .mviR _ n | .mviM n | .adi n | .aci n | .sui n | .sbi n | .ani n | .xri n | .ori n | .cpi n
  | .inp n | .out n => [n]
  | .lxi _ w | .lda w | .sta w | .lhld w | .shld w | .jmp w | .jmpAlias w | .jnz w | .jz w | .jnc w | .jc w
  | .jpo w | .jpe w | .jp w | .jm w | .call w | .callAlias _ w | .cnz w | .cz w | .cnc w | .cc w | .cpo w
  | .cpe w | .cp w | .cm w => [lo8 w, hi8 w]
  | _ => []

/-- The bytes of an instruction, the opcode first (R70). -/
def encode (i : Instr) : List Byte := i.opcode :: i.operandBytes

/-! ### Words numbered as spec/opcode_table.json numbers them -/

/-- The three bytes of a table word of `nbits` bits: the first byte is bits 7..0, the second bits 15..8, the
third bits 23..16; every bit above `nbits` is 0. -/
def tableBytes (nbits w : Nat) : List Byte :=
  [BitVec.ofNat 8 (w % 2 ^ nbits), BitVec.ofNat 8 (w % 2 ^ nbits / 256), BitVec.ofNat 8 (w % 2 ^ nbits / 65536)]

/-- The instruction the decoder reads from a table word. -/
def decodeTableWord (nbits w : Nat) : Option Instr :=
  match decode (tableBytes nbits w) with
  | .ok (i, _) => some i
  | .error _ => none

end Sys2Proof
end

