-- ==== Sys2Proof/Machine/Fetch.lean ====
section
/-! DEFINITION. Fetching one instruction (R78): the opcode, then the operand bytes its length asks for, PC
checked and advanced past each byte; and where the host's loader places an instruction to be fetched next. -/

namespace Sys2Proof.Machine

/-- `b <- MemRead(PC, 1); PC <- chk16(PC + 1)` (R78). -/
def fetchByte (s : State) : Except Fault (Byte × State) :=
  match memRead1 s.pc.toNat s with
  | .error f => .error f
  | .ok b =>
    match chk16 ((s.pc.toNat : Int) + 1) with
    | .error f => .error f
    | .ok pc => .ok (b, s.setPc pc)

/-- The operand bytes of an opcode: none, `imm8`, or the low and the high byte of `imm16`; a byte the format
does not have is given as 0 and is not fetched (R70, R78). -/
def fetchOperands (len : Nat) (s : State) : Except Fault (Byte × Byte × State) :=
  if len < 2 then .ok (0, 0, s)
  else
    match fetchByte s with
    | .error f => .error f
    | .ok (b1, s1) =>
      if len < 3 then .ok (b1, 0, s1)
      else
        match fetchByte s1 with
        | .error f => .error f
        | .ok (b2, s2) => .ok (b1, b2, s2)

/-- Steps (1) and (2) of R78: the instruction at PC, and the state with PC past all its bytes. -/
def fetchInstr (s : State) : Except Fault (Instr × State) :=
  match fetchByte s with
  | .error f => .error f
  | .ok (op, s1) =>
    match fetchOperands (opLength op) s1 with
    | .error f => .error f
    | .ok (b1, b2, s2) => .ok (instrOf op b1 b2, s2)

/-- Loads bytes at rising addresses from `a`; a byte that would lie above 0xFFFF is dropped (log entry 13). -/
def placeBytes (a : Nat) (bytes : List Byte) (m : Memory) : Memory :=
  match bytes with
  | [] => m
  | b :: rest => placeBytes (a + 1) rest (if a < Config.memSize then memSet m a b else m)

/-- The state in which the next action is `Step` and the bytes stand where it fetches (log entry 13). -/
def placeNext (bytes : List Byte) (s : State) : State :=
  (s.setMem (placeBytes s.pc.toNat bytes s.mem)).setHostActions []

end Sys2Proof.Machine
end

