-- ==== Sys2Proof/Machine/Step.lean ====
section
/-! DEFINITION. One step of the machine: the host's next action, which is `Step`, one whole instruction (R8,
R78), or `Interrupt(v)` between two instructions (R9, R256). -/

namespace Sys2Proof.Machine

/-- `Step` (R78): fetch, then perform the instruction's operation with PC past the instruction. -/
def runInstr (s : State) : Result :=
  match fetchInstr s with
  | .error f => .fault f
  | .ok (i, t) => exec i t

/-- The host's next action, done to the end (R9, R58). -/
def step (s : State) : Host.Outcome State Fault Refusal :=
  match nextAction s with
  | (.step, t) => runInstr t
  | (.interrupt v, t) => interrupt v t

/-- `s` with the instruction of a table word where the next step fetches it (log entries 12 and 13). -/
def State.withFetchWord (s : State) (nbits w : Nat) : State := placeNext (tableBytes nbits w) s

end Sys2Proof.Machine
end

