-- ==== Sys2Proof/Machine/Reset.lean ====
section
/-! DEFINITION. The reset procedure with its open parameters as arguments (R4, R280): the fill byte, the images, the
register values and the reset PC. `State.reset` is one instance of it. -/

namespace Sys2Proof.Machine

/-- `RESET_REGS`: the values of A to L, SP and the five flags at the first step, open (R4, R34). -/
structure ResetRegs where
  regs : Regs
  sp : Word
  flags : Flags
  deriving DecidableEq, Repr

/-- `for a in 0..0xFFFF: MEM[a] <- MEM_FILL` (R280), in the canonical form. -/
def filledMemory (fill : Byte) : Memory :=
  if fill = Config.unlistedByte then [] else (List.range Config.memSize).map (fun a => (a, fill))

/-- Every byte of an image that begins at an offset has an address: `offset + i <= 0xFFFF` (R280). An image of no
bytes has none to place. -/
def imageFits (offset : Nat) (bytes : List Byte) : Bool :=
  bytes.isEmpty || decide (offset + bytes.length ≤ Config.memSize)

/-- Copies the images over memory in list order; none where one would extend past 0xFFFF (R280, log entry 14). -/
def loadImages (image : List (Nat × List Byte)) (m : Memory) : Option Memory :=
  match image with
  | [] => some m
  | (offset, bytes) :: rest =>
    if imageFits offset bytes then loadImages rest (placeBytes offset bytes m) else none

/-- `Reset(MEM_FILL, MEM_IMAGE, RESET_REGS)` with `RESET_PC` (R280): a fresh machine; none for an image that
does not fit, which is no legal parameter (log entry 14). -/
def State.resetWith (fill : Byte) (image : List (Nat × List Byte)) (regs : ResetRegs) (pc : Word) : Option State :=
  match loadImages image (filledMemory fill) with
  | none => none
  | some m =>
    some { State.reset with regs := regs.regs, sp := regs.sp, flags := regs.flags, pc := pc, ie := false, mem := m }

end Sys2Proof.Machine
end

