-- ==== Sys2Proof/Machine/Run.lean ====
section
/-! DEFINITION. How a run ends (R285): at the first step that reports halt, at a fault, or when the host stops. -/

namespace Sys2Proof.Machine

/-- The end of a run (R285). A fault has no end state (R254). -/
inductive RunEnd where
  | halted (s : State)
  | faulted (f : Fault)
  | refused (r : Refusal)
  | stopped (s : State)
  deriving DecidableEq, Repr

/-- The last action reported halt (R36, R244). -/
def State.halts (s : State) : Bool :=
  match s.report with
  | some r => r.halt
  | none => false

/-- A run of at most `k` actions of the host; the run is over at the first step that reports halt (R285). -/
def run (k : Nat) (s : State) : RunEnd :=
  match k with
  | 0 => .stopped s
  | k + 1 =>
    match step s with
    | .fault f => .faulted f
    | .refused r => .refused r
    | .next t => if t.halts then .halted t else run k t

end Sys2Proof.Machine
end

