-- ==== Sys2Proof/Safety.lean ====
section
/-! DEFINITION. The terms claims are written in: the invariant of the machine, what stays the same, the flags of a
result in plain arithmetic, where an operation faults, which bytes and flags an instruction writes, and what it
means for an instruction to complete with a given effect. Nothing here is part of the machine. -/

namespace Sys2Proof.Machine

/-! ### The invariant, and safe runs -/

/-- Memory is in the model's canonical form (log entry 4), and a report in State (log entry 8) is that of some
instruction: its count in the T-state table (log entry 10), and halt exactly for HLT. The ranges of R35 hold by the
types. -/
def Inv (s : State) : Prop :=
  Memory.wf s.mem ∧ ∀ r, s.report = some r → ∃ i b, r = { cycles := tstates i b, halt := decide (i = .hlt) }

/-- `k` actions of the machine in which nothing faults (R254). -/
def SafeFor (k : Nat) (s : State) : Prop :=
  ∀ f, core.run k s ≠ .fault f

/-- No action of the first `k` reported halt (R285). -/
def NoHaltWithin (k : Nat) (s : State) : Prop :=
  ∀ (j : Nat) (u : State), 0 < j → j ≤ k → core.run j s = .next u → u.halts = false

/-! ### What stays the same -/

/-- Every byte of memory reads as before. -/
def SameMem (s t : State) : Prop := ∀ a : Word, t.byteAt a = s.byteAt a

/-- Every byte of memory reads as before but those stored to. -/
def SameMemBut (s t : State) (stored : List Word) : Prop := ∀ a : Word, a ∉ stored → t.byteAt a = s.byteAt a

/-- Every register of A to L reads as before but those written. -/
def SameRegsBut (s t : State) (written : List Reg8) : Prop := ∀ q, q ∉ written → t.reg q = s.reg q

/-- IE, the port record, the host's answers and the host's actions are as before. -/
def SameRest (s t : State) : Prop :=
  t.ie = s.ie ∧ t.portEvents = s.portEvents ∧ t.portAnswers = s.portAnswers ∧ t.hostActions = s.hostActions

/-! ### Flags of a result in plain arithmetic (R27) -/

/-- The number of 1 bits of a value below 256. -/
def onesIn (n : Nat) : Nat := ((List.range 8).filter (fun k => n / 2 ^ k % 2 == 1)).length

/-- Z, S and P belong to the result r (R27). -/
def ZspOf (r : Byte) (f : Flags) : Prop :=
  (f.z = true ↔ r.toNat = 0) ∧ (f.s = true ↔ 128 ≤ r.toNat) ∧ (f.p = true ↔ onesIn r.toNat % 2 = 0)

/-! ### Conditional instructions -/

/-- The condition code of a conditional jump, call or return (R200). -/
def condCode : Instr → Option (BitVec 3)
  | .rnz | .jnz _ | .cnz _ => some 0
  | .rz | .jz _ | .cz _ => some 1
  | .rnc | .jnc _ | .cnc _ => some 2
  | .rc | .jc _ | .cc _ => some 3
  | .rpo | .jpo _ | .cpo _ => some 4
  | .rpe | .jpe _ | .cpe _ => some 5
  | .rp | .jp _ | .cp _ => some 6
  | .rm | .jm _ | .cm _ => some 7
  | _ => none

/-- The condition of a conditional instruction holds; false for the others. -/
def taken (i : Instr) (f : Flags) : Bool :=
  match condCode i with
  | some c => condHolds c f
  | none => false

/-! ### Where an operation faults (R63, R251) -/

/-- The instruction pushes a word in this state: PUSH, CALL, a taken conditional call, RST. -/
def pushes (i : Instr) (f : Flags) : Bool :=
  match i with
  | .pushB | .pushD | .pushH | .pushPsw | .call _ | .callAlias _ _ | .rst _ => true
  | .cnz _ | .cz _ | .cnc _ | .cc _ | .cpo _ | .cpe _ | .cp _ | .cm _ => taken i f
  | _ => false

/-- The instruction pops a word in this state: POP, RET, a taken conditional return. -/
def pops (i : Instr) (f : Flags) : Bool :=
  match i with
  | .popB | .popD | .popH | .popPsw | .ret | .retAlias => true
  | .rnz | .rz | .rnc | .rc | .rpo | .rpe | .rp | .rm => taken i f
  | _ => false

/-- The fault of an instruction's operation, if it has one in this state: the table of R63 without its fetch
lines. -/
def operationFault (i : Instr) (s : State) : Option Fault :=
  if pushes i s.flags then
    if s.sp.toNat < 2 then some (.addressFault ((s.sp.toNat : Int) - 2)) else none
  else if pops i s.flags then
    if 0xFFFE ≤ s.sp.toNat then some (.addressFault 0x10000) else none
  else
    match i with
    | .lhld w | .shld w => if w.toNat = 0xFFFF then some (.addressFault 0x10000) else none
    | .xthl => if s.sp.toNat = 0xFFFF then some (.addressFault 0x10000) else none
    | _ => none

/-- The fault of a step, if it has one: in a delivery, in fetch, or in the operation, fetch first (R251). -/
def stepFault (s : State) : Option Fault :=
  match s.hostActions with
  | .interrupt _ :: _ =>
    if s.ie ∧ s.sp.toNat < 2 then some (.addressFault ((s.sp.toNat : Int) - 2)) else none
  | _ =>
    if 0xFFFF < s.pc.toNat + opLength (s.byteAt s.pc) then some (.addressFault 0x10000)
    else operationFault (instrOf (s.byteAt s.pc) (s.byteAt (s.pc + 1)) (s.byteAt (s.pc + 2))) s

/-! ### What an instruction writes -/

/-- The word an instruction pushes, where it pushes one: the pair, PSW, or PC (R192, R193, R211, R231). -/
def pushedWord (i : Instr) (s : State) : Word :=
  match i with
  | .pushB => s.pair .bc
  | .pushD => s.pair .de
  | .pushH => s.pair .hl
  | .pushPsw => s.psw
  | _ => s.pc

/-- The bytes an instruction stores, each with its address, computed as its meaning computes them (R55). -/
def storedData (i : Instr) (s : State) : List (Word × Byte) :=
  match i with
  | .movMR r => [(s.hl, s.reg r)]
  | .mviM n => [(s.hl, n)]
  | .inrM => [(s.hl, s.byteAt s.hl + 1)]
  | .dcrM => [(s.hl, s.byteAt s.hl - 1)]
  | .stax p => [(s.indexAddr p, s.regs.a)]
  | .sta w => [(w, s.regs.a)]
  | .shld w => [(w, s.regs.l), (w + 1, s.regs.h)]
  | .xthl => [(s.sp, s.regs.l), (s.sp + 1, s.regs.h)]
  | _ => if pushes i s.flags then [(s.sp - 2, lo8 (pushedWord i s)), (s.sp - 1, hi8 (pushedWord i s))] else []

/-- The addresses an instruction stores to (R55). -/
def storedBytes (i : Instr) (s : State) : List Word := (storedData i s).map (·.1)

/-- Which flags an instruction may write: the rows of the table of R26. -/
inductive FlagRow where
  | all | allButCarry | carryOnly | none
  deriving DecidableEq, Repr

/-- The row of R26 an instruction belongs to. -/
def flagRow : Instr → FlagRow
  | .addR _ | .addM | .adi _ | .adcR _ | .adcM | .aci _ => .all
  | .subR _ | .subM | .sui _ | .sbbR _ | .sbbM | .sbi _ | .cmpR _ | .cmpM | .cpi _ => .all
  | .anaR _ | .anaM | .ani _ | .xraR _ | .xraM | .xri _ | .oraR _ | .oraM | .ori _ => .all
  | .daa | .popPsw => .all
  | .inrR _ | .inrM | .dcrR _ | .dcrM => .allButCarry
  | .rlc | .rrc | .ral | .rar | .stc | .cmc | .dad _ => .carryOnly
  | _ => .none

/-! ### Completing with a given effect -/

/-- The instruction completes and changes nothing but the outputs of the step. -/
def DoesNothing (i : Instr) (s : State) : Prop :=
  ∃ t, exec i s = .next t ∧ SameRegsBut s t [] ∧ t.sp = s.sp ∧ t.pc = s.pc ∧ t.flags = s.flags ∧ SameMem s t ∧
    SameRest s t

/-- The instruction completes with PC at the target and changes nothing else. -/
def JumpsTo (i : Instr) (s : State) (target : Word) : Prop :=
  ∃ t, exec i s = .next t ∧ t.pc = target ∧ SameRegsBut s t [] ∧ t.sp = s.sp ∧ t.flags = s.flags ∧ SameMem s t ∧
    SameRest s t

/-- The instruction completes with v in register r, and changes nothing else. -/
def PutsInReg (i : Instr) (s : State) (r : Reg8) (v : Byte) : Prop :=
  ∃ t, exec i s = .next t ∧ t.reg r = v ∧ SameRegsBut s t [r] ∧ t.sp = s.sp ∧ t.pc = s.pc ∧ t.flags = s.flags ∧
    SameMem s t ∧ SameRest s t

/-- The instruction completes with v in the byte at x, and changes nothing else. -/
def PutsInByte (i : Instr) (s : State) (x : Word) (v : Byte) : Prop :=
  ∃ t, exec i s = .next t ∧ t.byteAt x = v ∧ SameMemBut s t [x] ∧ SameRegsBut s t [] ∧ t.sp = s.sp ∧ t.pc = s.pc ∧
    t.flags = s.flags ∧ SameRest s t

/-- The instruction completes with the two registers of a pair (high, low) holding the halves of w, or SP holding
w, and changes nothing else. -/
def PutsInPair (i : Instr) (s : State) (pp : RegPair) (w : Nat) : Prop :=
  ∃ t, exec i s = .next t ∧ t.pc = s.pc ∧ t.flags = s.flags ∧ SameMem s t ∧ SameRest s t ∧
    match pp with
    | .bc => (t.regs.b.toNat = w / 256 ∧ t.regs.c.toNat = w % 256) ∧ SameRegsBut s t [.b, .c] ∧ t.sp = s.sp
    | .de => (t.regs.d.toNat = w / 256 ∧ t.regs.e.toNat = w % 256) ∧ SameRegsBut s t [.d, .e] ∧ t.sp = s.sp
    | .hl => (t.regs.h.toNat = w / 256 ∧ t.regs.l.toNat = w % 256) ∧ SameRegsBut s t [.h, .l] ∧ t.sp = s.sp
    | .sp => t.sp.toNat = w ∧ SameRegsBut s t []

/-- The value of a pair in plain arithmetic (R22). -/
def pairValue (s : State) (pp : RegPair) : Nat :=
  match pp with
  | .bc => 256 * s.regs.b.toNat + s.regs.c.toNat
  | .de => 256 * s.regs.d.toNat + s.regs.e.toNat
  | .hl => 256 * s.regs.h.toNat + s.regs.l.toNat
  | .sp => s.sp.toNat

/-- What an instruction of the ALU leaves alone when A is its one destination register. -/
def OnlyAAndFlags (s t : State) : Prop :=
  SameRegsBut s t [.a] ∧ t.sp = s.sp ∧ t.pc = s.pc ∧ SameMem s t ∧ SameRest s t

/-- The instruction completes with A + v + c in A modulo 256, the five flags as R120 says, and nothing else. -/
def AddsToA (i : Instr) (s : State) (v : Byte) (c : Nat) : Prop :=
  ∃ t, exec i s = .next t ∧ t.regs.a.toNat = (s.regs.a.toNat + v.toNat + c) % 256 ∧ ZspOf t.regs.a t.flags ∧
    (t.flags.cy = true ↔ 255 < s.regs.a.toNat + v.toNat + c) ∧
    (t.flags.ac = true ↔ 15 < s.regs.a.toNat % 16 + v.toNat % 16 + c) ∧ OnlyAAndFlags s t

/-- CY and AC are the borrows of A - v - b (R121). -/
def BorrowsOf (a v b : Nat) (f : Flags) : Prop :=
  (f.cy = true ↔ a < v + b) ∧ (f.ac = true ↔ a % 16 < v % 16 + b)

/-- The instruction completes with A - v - b in A modulo 256, the five flags as R121 says, and nothing else. -/
def SubsFromA (i : Instr) (s : State) (v : Byte) (b : Nat) : Prop :=
  ∃ t, exec i s = .next t ∧ t.regs.a.toNat = (s.regs.a.toNat + 512 - v.toNat - b) % 256 ∧ ZspOf t.regs.a t.flags ∧
    BorrowsOf s.regs.a.toNat v.toNat b t.flags ∧ OnlyAAndFlags s t

/-- The instruction completes with the five flags of A - v and changes nothing else; A is not written (R144). -/
def ComparesWithA (i : Instr) (s : State) (v : Byte) : Prop :=
  ∃ t, exec i s = .next t ∧ (∃ r : Byte, r.toNat = (s.regs.a.toNat + 256 - v.toNat) % 256 ∧ ZspOf r t.flags) ∧
    BorrowsOf s.regs.a.toNat v.toNat 0 t.flags ∧ t.regs.a = s.regs.a ∧ OnlyAAndFlags s t

/-- The instruction completes with r in A, Z, S, P of r, CY and AC clear, and nothing else (R122). -/
def SetsAByLogic (i : Instr) (s : State) (r : Byte) : Prop :=
  ∃ t, exec i s = .next t ∧ t.regs.a = r ∧ ZspOf r t.flags ∧ t.flags.cy = false ∧ t.flags.ac = false ∧
    OnlyAAndFlags s t

/-- The instruction completes with r in A and CY as given; Z, S, P, AC and all else are kept (R155 to R158). -/
def SetsAAndCarry (i : Instr) (s : State) (r : Nat) (c : Prop) : Prop :=
  ∃ t, exec i s = .next t ∧ t.regs.a.toNat = r ∧ (t.flags.cy = true ↔ c) ∧ t.flags.z = s.flags.z ∧
    t.flags.s = s.flags.s ∧ t.flags.p = s.flags.p ∧ t.flags.ac = s.flags.ac ∧ OnlyAAndFlags s t

/-- A push: with SP at least 2 the instruction completes with the two bytes at the new SP and above it, SP down by
two, PC at `target`, and nothing else changed; with SP 0 or 1 it faults (R190). -/
def PushesBytes (i : Instr) (s : State) (hi lo : Nat) (target : Word) : Prop :=
  (2 ≤ s.sp.toNat → ∃ t, exec i s = .next t ∧ t.sp.toNat = s.sp.toNat - 2 ∧ t.pc = target ∧
    (t.byteAt (s.sp - 2)).toNat = lo ∧ (t.byteAt (s.sp - 1)).toNat = hi ∧ SameMemBut s t [s.sp - 2, s.sp - 1] ∧
    SameRegsBut s t [] ∧ t.flags = s.flags ∧ SameRest s t) ∧
  (s.sp.toNat < 2 → exec i s = .fault (.addressFault ((s.sp.toNat : Int) - 2)))

/-- A pop: with SP below 0xFFFE the instruction completes with SP up by two and memory as before, and what it does
with the low byte at SP and the high byte above it is `effect`; from 0xFFFE on it faults (R191). -/
def PopsBytes (i : Instr) (s : State) (effect : State → Byte → Byte → Prop) : Prop :=
  (s.sp.toNat < 0xFFFE → ∃ t, exec i s = .next t ∧ t.sp.toNat = s.sp.toNat + 2 ∧ SameMem s t ∧ SameRest s t ∧
    effect t (s.byteAt (s.sp + 1)) (s.byteAt s.sp)) ∧
  (0xFFFE ≤ s.sp.toNat → exec i s = .fault (.addressFault 0x10000))

/-- A pop into PC (R221). -/
def ReturnsByPop (i : Instr) (s : State) : Prop :=
  PopsBytes i s fun t hi lo =>
    t.pc.toNat = 256 * hi.toNat + lo.toNat ∧ SameRegsBut s t [] ∧ t.flags = s.flags

end Sys2Proof.Machine
end

