-- ==== Sys2Proof/Certificates/Slice0/Obligations.lean ====
section
/-! DEFINITION. The statements for the provers. Each docstring names the rule of the spec it formalises, or says what
of it is the model's own choice. -/

open Sys2Proof Sys2Proof.Machine

/-! ### Encoding and decoding -/

/-- R70, R76, R77, R79 to R84: an encoded instruction decodes to itself with every operand, whatever follows it. -/
def Obligations.DecodingAnEncodedInstructionGivesItBack : Prop :=
  ∀ (i : Instr) (rest : List Byte), i.wf = true → decode (encode i ++ rest) = .ok (i, rest)

/-- R70, R83: what decodes is well formed, and its encoding is exactly the bytes it was read from. -/
def Obligations.EncodingADecodedInstructionGivesItsBytes : Prop :=
  ∀ (bytes rest : List Byte) (i : Instr), decode bytes = .ok (i, rest) → i.wf = true ∧ encode i ++ rest = bytes

/-- R70, R85: every first byte has an instruction; its length is 1, 2 or 3 bytes and depends on the first byte alone;
decoding fails only for want of bytes. -/
def Obligations.EveryFirstByteHasAnInstruction : Prop :=
  ∀ (op : Byte) (rest : List Byte),
    (1 ≤ opLength op ∧ opLength op ≤ 3) ∧
    (opLength op ≤ rest.length + 1 → ∃ i, decode (op :: rest) = .ok (i, rest.drop (opLength op - 1)) ∧
      i.size = opLength op) ∧
    (rest.length + 1 < opLength op → decode (op :: rest) = .error (.missingOperand op))

/-- Words written out from the patterns of R79 to R84, one for each family of the table: MOV A,B; MVI B,3; LXI H,0020h;
ADD B; CMA; DAD D; PUSH PSW; XTHL; JNZ 0006h; CALL* 4000h; RST 2; IN 10h; HLT; NOP*. -/
def Obligations.WordsOfEachFamilyDecode : Prop :=
  decode [0b01111000] = .ok (.movRR .a .b, []) ∧
  decode [0b00000110, 3] = .ok (.mviR .b 3, []) ∧
  decode [0b00100001, 0x20, 0x00] = .ok (.lxi .hl 0x0020, []) ∧
  decode [0b10000000] = .ok (.addR .b, []) ∧
  decode [0b00101111] = .ok (.cma, []) ∧
  decode [0b00011001] = .ok (.dad .de, []) ∧
  decode [0b11110101] = .ok (.pushPsw, []) ∧
  decode [0b11100011] = .ok (.xthl, []) ∧
  decode [0b11000010, 0x06, 0x00] = .ok (.jnz 0x0006, []) ∧
  decode [0b11011101, 0x00, 0x40] = .ok (.callAlias 1 0x4000, []) ∧
  decode [0b11010111] = .ok (.rst 2, []) ∧
  decode [0b11011011, 0x10] = .ok (.inp 0x10, []) ∧
  decode [0b01110110] = .ok (.hlt, []) ∧
  decode [0b00001000] = .ok (.nopAlias 1, [])

/-! ### The state's views -/

/-- R22: a pair is a view: reading it reads the first-named register as the high byte and the second as the low
byte; writing a word writes both halves and no other register; slot 3 is SP. -/
def Obligations.PairsAreViewsOfTheirRegisters : Prop :=
  ∀ (s : State) (pp : RegPair) (w : Word),
    (s.pair pp).toNat = pairValue s pp ∧ pairValue (s.setPair pp w) pp = w.toNat ∧
    (∀ q : RegPair, q ≠ pp → pairValue (s.setPair pp w) q = pairValue s q) ∧ (s.setPair pp w).regs.a = s.regs.a ∧
    (pairOfCode 0 = .bc ∧ pairOfCode 1 = .de ∧ pairOfCode 2 = .hl ∧ pairOfCode 3 = .sp)

/-- R28: the flag byte holds S, Z, 0, AC, 0, P, 1, CY from bit 7 down to bit 0; unpacking ignores bits 5, 3 and 1, so
that packing what was unpacked forces them. -/
def Obligations.FlagByteLayout : Prop :=
  ∀ (f : Flags) (v : Byte),
    ((packF f).getLsbD 7 = f.s ∧ (packF f).getLsbD 6 = f.z ∧ (packF f).getLsbD 5 = false ∧ (packF f).getLsbD 4 = f.ac ∧
      (packF f).getLsbD 3 = false ∧ (packF f).getLsbD 2 = f.p ∧ (packF f).getLsbD 1 = true ∧ (packF f).getLsbD 0 = f.cy) ∧
    ((unpackF v).s = v.getLsbD 7 ∧ (unpackF v).z = v.getLsbD 6 ∧ (unpackF v).ac = v.getLsbD 4 ∧
      (unpackF v).p = v.getLsbD 2 ∧ (unpackF v).cy = v.getLsbD 0) ∧
    unpackF (packF f) = f ∧ packF (unpackF v) = (v &&& 0b11010101) ||| 0b00000010

/-- R51: a read gives the last byte written there, a write leaves every other byte alone, and an address outside
0..0xFFFF faults with that address. -/
def Obligations.MemoryReadsBackTheLastWrite : Prop :=
  ∀ (s : State) (a : Int) (v : Byte),
    (0 ≤ a ∧ a ≤ 0xFFFF → ∃ t, memWrite1 a v s = .ok t ∧ memRead1 a t = .ok v ∧
      (∀ b : Int, b ≠ a → memRead1 b t = memRead1 b s) ∧ SameRegsBut s t [] ∧ t.sp = s.sp ∧ t.pc = s.pc ∧
      t.flags = s.flags ∧ SameRest s t) ∧
    (¬ (0 ≤ a ∧ a ≤ 0xFFFF) →
      memWrite1 a v s = .error (.addressFault a) ∧ memRead1 a s = .error (.addressFault a))

/-- R52: a 16-bit access is little-endian; both addresses are checked first; what was written is read back. -/
def Obligations.WordAccessesAreLittleEndian : Prop :=
  ∀ (s : State) (a : Word) (w : Word),
    (a.toNat < 0xFFFF → ∃ t, memWrite2 a.toNat w s = .ok t ∧ (t.byteAt a).toNat = w.toNat % 256 ∧
      (t.byteAt (a + 1)).toNat = w.toNat / 256 ∧ SameMemBut s t [a, a + 1] ∧ memRead2 a.toNat t = .ok w) ∧
    (a.toNat = 0xFFFF →
      memWrite2 a.toNat w s = .error (.addressFault 0x10000) ∧ memRead2 a.toNat s = .error (.addressFault 0x10000))

/-- Two memories in canonical form that read alike at every address are the same data (the model's own form of R30). -/
def Obligations.EqualMemoriesAreEqualData : Prop :=
  ∀ m n : Memory, Memory.wf m → Memory.wf n → (∀ a, a < 65536 → memGet m a = memGet n a) → m = n

/-! ### Data transfer (40_data_transfer.md) -/

/-- R100, R101, R103, R106, R110: the loads of one register. M is read through the HL of before the load. -/
def Obligations.LoadsPutTheOperandInTheRegister : Prop :=
  ∀ s : State,
    (∀ dst r, encode (.movRR dst r) = [BitVec.ofNat 8 (0x40 + 8 * dst.code.toNat + r.code.toNat)] ∧
      PutsInReg (.movRR dst r) s dst (s.reg r)) ∧
    (∀ dst, encode (.movRM dst) = [BitVec.ofNat 8 (0x46 + 8 * dst.code.toNat)] ∧
      PutsInReg (.movRM dst) s dst (s.byteAt s.hl)) ∧
    (∀ r n, encode (.mviR r n) = [BitVec.ofNat 8 (0x06 + 8 * r.code.toNat), n] ∧ PutsInReg (.mviR r n) s r n) ∧
    (∀ w, encode (.lda w) = [0x3A, lo8 w, hi8 w] ∧ PutsInReg (.lda w) s .a (s.byteAt w)) ∧
    (encode (.ldax .bc) = [0x0A] ∧ PutsInReg (.ldax .bc) s .a (s.byteAt (s.pair .bc))) ∧
    (encode (.ldax .de) = [0x1A] ∧ PutsInReg (.ldax .de) s .a (s.byteAt (s.pair .de)))

/-- R102, R104, R107, R111: the stores of one byte, at the address the meaning computes. -/
def Obligations.StoresPutTheOperandInMemory : Prop :=
  ∀ s : State,
    (∀ r, encode (.movMR r) = [BitVec.ofNat 8 (0x70 + r.code.toNat)] ∧ PutsInByte (.movMR r) s s.hl (s.reg r)) ∧
    (∀ n, encode (.mviM n) = [0x36, n] ∧ PutsInByte (.mviM n) s s.hl n) ∧
    (∀ w, encode (.sta w) = [0x32, lo8 w, hi8 w] ∧ PutsInByte (.sta w) s w s.regs.a) ∧
    (encode (.stax .bc) = [0x02] ∧ PutsInByte (.stax .bc) s (s.pair .bc) s.regs.a) ∧
    (encode (.stax .de) = [0x12] ∧ PutsInByte (.stax .de) s (s.pair .de) s.regs.a)

/-- R105: LXI loads a pair or SP with any word. -/
def Obligations.LxiLoadsThePair : Prop :=
  ∀ (s : State) (pp : RegPair) (w : Word),
    encode (.lxi pp w) = [BitVec.ofNat 8 (0x01 + 16 * pp.code.toNat), lo8 w, hi8 w] ∧
      PutsInPair (.lxi pp w) s pp w.toNat

/-- R108: LHLD loads L from a16 and H from a16 + 1, and faults at 0xFFFF. -/
def Obligations.LhldLoadsHLFromMemory : Prop :=
  ∀ (s : State) (w : Word),
    encode (.lhld w) = [0x2A, lo8 w, hi8 w] ∧
    (w.toNat < 0xFFFF →
      PutsInPair (.lhld w) s .hl (256 * (s.byteAt (w + 1)).toNat + (s.byteAt w).toNat)) ∧
    (w.toNat = 0xFFFF → exec (.lhld w) s = .fault (.addressFault 0x10000))

/-- R109: SHLD stores L to a16 and H to a16 + 1, and faults at 0xFFFF. -/
def Obligations.ShldStoresHLToMemory : Prop :=
  ∀ (s : State) (w : Word),
    encode (.shld w) = [0x22, lo8 w, hi8 w] ∧
    (w.toNat < 0xFFFF → ∃ t, exec (.shld w) s = .next t ∧ t.byteAt w = s.regs.l ∧ t.byteAt (w + 1) = s.regs.h ∧
      SameMemBut s t [w, w + 1] ∧ SameRegsBut s t [] ∧ t.sp = s.sp ∧ t.pc = s.pc ∧ t.flags = s.flags ∧ SameRest s t) ∧
    (w.toNat = 0xFFFF → exec (.shld w) s = .fault (.addressFault 0x10000))

/-- R112: XCHG exchanges HL with DE; two in a row restore both. -/
def Obligations.XchgExchangesHLAndDE : Prop :=
  ∀ s : State, encode .xchg = [0xEB] ∧
    ∃ t, exec .xchg s = .next t ∧ t.regs.h = s.regs.d ∧ t.regs.l = s.regs.e ∧ t.regs.d = s.regs.h ∧ t.regs.e = s.regs.l ∧
      SameRegsBut s t [.d, .e, .h, .l] ∧ t.sp = s.sp ∧ t.pc = s.pc ∧ t.flags = s.flags ∧ SameMem s t ∧ SameRest s t ∧
      ∃ u, exec .xchg t = .next u ∧ SameRegsBut s u []

/-! ### Eight-bit arithmetic, logic, rotates (41_alu8.md) -/

/-- R120, R123 to R128: the additions, with CY as the third term in ADC and ACI. -/
def Obligations.AdditionsFollowTheAddPath : Prop :=
  ∀ s : State,
    (∀ r, encode (.addR r) = [BitVec.ofNat 8 (0x80 + r.code.toNat)] ∧ AddsToA (.addR r) s (s.reg r) 0) ∧
    (encode .addM = [0x86] ∧ AddsToA .addM s (s.byteAt s.hl) 0) ∧
    (∀ n, encode (.adi n) = [0xC6, n] ∧ AddsToA (.adi n) s n 0) ∧
    (∀ r, encode (.adcR r) = [BitVec.ofNat 8 (0x88 + r.code.toNat)] ∧ AddsToA (.adcR r) s (s.reg r) (bit s.flags.cy)) ∧
    (encode .adcM = [0x8E] ∧ AddsToA .adcM s (s.byteAt s.hl) (bit s.flags.cy)) ∧
    (∀ n, encode (.aci n) = [0xCE, n] ∧ AddsToA (.aci n) s n (bit s.flags.cy))

/-- R121, R129 to R134: the subtractions, with CY as the third term in SBB and SBI; CY and AC are borrows. -/
def Obligations.SubtractionsFollowTheSubPath : Prop :=
  ∀ s : State,
    (∀ r, encode (.subR r) = [BitVec.ofNat 8 (0x90 + r.code.toNat)] ∧ SubsFromA (.subR r) s (s.reg r) 0) ∧
    (encode .subM = [0x96] ∧ SubsFromA .subM s (s.byteAt s.hl) 0) ∧
    (∀ n, encode (.sui n) = [0xD6, n] ∧ SubsFromA (.sui n) s n 0) ∧
    (∀ r, encode (.sbbR r) = [BitVec.ofNat 8 (0x98 + r.code.toNat)] ∧ SubsFromA (.sbbR r) s (s.reg r) (bit s.flags.cy)) ∧
    (encode .sbbM = [0x9E] ∧ SubsFromA .sbbM s (s.byteAt s.hl) (bit s.flags.cy)) ∧
    (∀ n, encode (.sbi n) = [0xDE, n] ∧ SubsFromA (.sbi n) s n (bit s.flags.cy))

/-- R144, R145, R146: compares; Z exactly when A = v, CY exactly when A < v, and A is left alone. -/
def Obligations.ComparesWriteOnlyTheFlags : Prop :=
  ∀ s : State,
    (∀ r, encode (.cmpR r) = [BitVec.ofNat 8 (0xB8 + r.code.toNat)] ∧ ComparesWithA (.cmpR r) s (s.reg r)) ∧
    (encode .cmpM = [0xBE] ∧ ComparesWithA .cmpM s (s.byteAt s.hl)) ∧
    (∀ n, encode (.cpi n) = [0xFE, n] ∧ ComparesWithA (.cpi n) s n ∧
      ∃ t, exec (.cpi n) s = .next t ∧ (t.flags.z = true ↔ s.regs.a = n) ∧ (t.flags.cy = true ↔ s.regs.a.toNat < n.toNat))

/-- R122, R135 to R143: AND, exclusive OR, OR; CY and AC are cleared. -/
def Obligations.LogicClearsCarries : Prop :=
  ∀ s : State,
    (∀ r, encode (.anaR r) = [BitVec.ofNat 8 (0xA0 + r.code.toNat)] ∧ SetsAByLogic (.anaR r) s (s.regs.a &&& s.reg r)) ∧
    (encode .anaM = [0xA6] ∧ SetsAByLogic .anaM s (s.regs.a &&& s.byteAt s.hl)) ∧
    (∀ n, encode (.ani n) = [0xE6, n] ∧ SetsAByLogic (.ani n) s (s.regs.a &&& n)) ∧
    (∀ r, encode (.xraR r) = [BitVec.ofNat 8 (0xA8 + r.code.toNat)] ∧ SetsAByLogic (.xraR r) s (s.regs.a ^^^ s.reg r)) ∧
    (encode .xraM = [0xAE] ∧ SetsAByLogic .xraM s (s.regs.a ^^^ s.byteAt s.hl)) ∧
    (∀ n, encode (.xri n) = [0xEE, n] ∧ SetsAByLogic (.xri n) s (s.regs.a ^^^ n)) ∧
    (∀ r, encode (.oraR r) = [BitVec.ofNat 8 (0xB0 + r.code.toNat)] ∧ SetsAByLogic (.oraR r) s (s.regs.a ||| s.reg r)) ∧
    (encode .oraM = [0xB6] ∧ SetsAByLogic .oraM s (s.regs.a ||| s.byteAt s.hl)) ∧
    (∀ n, encode (.ori n) = [0xF6, n] ∧ SetsAByLogic (.ori n) s (s.regs.a ||| n))

/-- R147, R149: INR and DCR of a register: modulo 256, Z, S, P of the result, AC the low-nibble carry or borrow, CY
kept. -/
def Obligations.RegisterIncrementAndDecrement : Prop :=
  ∀ (s : State) (r : Reg8),
    encode (.inrR r) = [BitVec.ofNat 8 (0x04 + 8 * r.code.toNat)] ∧
    encode (.dcrR r) = [BitVec.ofNat 8 (0x05 + 8 * r.code.toNat)] ∧
    (∃ t, exec (.inrR r) s = .next t ∧ (t.reg r).toNat = ((s.reg r).toNat + 1) % 256 ∧ ZspOf (t.reg r) t.flags ∧
      (t.flags.ac = true ↔ (s.reg r).toNat % 16 = 15) ∧ t.flags.cy = s.flags.cy ∧ SameRegsBut s t [r] ∧ t.sp = s.sp ∧
      t.pc = s.pc ∧ SameMem s t ∧ SameRest s t) ∧
    (∃ t, exec (.dcrR r) s = .next t ∧ (t.reg r).toNat = ((s.reg r).toNat + 255) % 256 ∧ ZspOf (t.reg r) t.flags ∧
      (t.flags.ac = true ↔ (s.reg r).toNat % 16 = 0) ∧ t.flags.cy = s.flags.cy ∧ SameRegsBut s t [r] ∧ t.sp = s.sp ∧
      t.pc = s.pc ∧ SameMem s t ∧ SameRest s t)

/-- R148, R150: INR M and DCR M: the byte at HL is read and written, no register changes. -/
def Obligations.MemoryIncrementAndDecrement : Prop :=
  ∀ s : State,
    encode .inrM = [0x34] ∧ encode .dcrM = [0x35] ∧
    (∃ t, exec .inrM s = .next t ∧ (t.byteAt s.hl).toNat = ((s.byteAt s.hl).toNat + 1) % 256 ∧
      ZspOf (t.byteAt s.hl) t.flags ∧ (t.flags.ac = true ↔ (s.byteAt s.hl).toNat % 16 = 15) ∧ t.flags.cy = s.flags.cy ∧
      SameMemBut s t [s.hl] ∧ SameRegsBut s t [] ∧ t.sp = s.sp ∧ t.pc = s.pc ∧ SameRest s t) ∧
    (∃ t, exec .dcrM s = .next t ∧ (t.byteAt s.hl).toNat = ((s.byteAt s.hl).toNat + 255) % 256 ∧
      ZspOf (t.byteAt s.hl) t.flags ∧ (t.flags.ac = true ↔ (s.byteAt s.hl).toNat % 16 = 0) ∧ t.flags.cy = s.flags.cy ∧
      SameMemBut s t [s.hl] ∧ SameRegsBut s t [] ∧ t.sp = s.sp ∧ t.pc = s.pc ∧ SameRest s t)

/-- R151: DAA is two conditional additions in a row, each through the add path; the second test reads A and CY as
the first left them (a1, f1); where no test holds nothing is written. -/
def Obligations.DaaIsTwoConditionalAdditions : Prop :=
  ∀ s : State, encode .daa = [0x27] ∧
    ∃ (t : State) (a1 : Byte) (f1 : Flags), exec .daa s = .next t ∧
      (s.regs.a.toNat % 16 > 9 ∨ s.flags.ac = true →
        a1.toNat = (s.regs.a.toNat + 6) % 256 ∧ ZspOf a1 f1 ∧ (f1.cy = true ↔ 255 < s.regs.a.toNat + 6) ∧
        (f1.ac = true ↔ 15 < s.regs.a.toNat % 16 + 6)) ∧
      (¬ (s.regs.a.toNat % 16 > 9 ∨ s.flags.ac = true) → a1 = s.regs.a ∧ f1 = s.flags) ∧
      (a1.toNat / 16 > 9 ∨ f1.cy = true →
        t.regs.a.toNat = (a1.toNat + 0x60) % 256 ∧ ZspOf t.regs.a t.flags ∧ (t.flags.cy = true ↔ 255 < a1.toNat + 0x60) ∧
        t.flags.ac = false) ∧
      (¬ (a1.toNat / 16 > 9 ∨ f1.cy = true) → t.regs.a = a1 ∧ t.flags = f1) ∧ OnlyAAndFlags s t

/-- R152, R153, R154: CMA complements A and writes no flag; STC and CMC write CY alone. -/
def Obligations.ComplementAndCarryInstructions : Prop :=
  ∀ s : State, encode .cma = [0x2F] ∧ encode .stc = [0x37] ∧ encode .cmc = [0x3F] ∧
    PutsInReg .cma s .a (s.regs.a ^^^ 0xFF) ∧
    SetsAAndCarry .stc s s.regs.a.toNat True ∧
    SetsAAndCarry .cmc s s.regs.a.toNat (s.flags.cy = false)

/-- R155 to R158: the rotates in plain arithmetic; only A and CY are written. -/
def Obligations.RotatesMoveOneBit : Prop :=
  ∀ s : State, encode .rlc = [0x07] ∧ encode .rrc = [0x0F] ∧ encode .ral = [0x17] ∧ encode .rar = [0x1F] ∧
    SetsAAndCarry .rlc s (2 * s.regs.a.toNat % 256 + s.regs.a.toNat / 128) (128 ≤ s.regs.a.toNat) ∧
    SetsAAndCarry .rrc s (s.regs.a.toNat / 2 + 128 * (s.regs.a.toNat % 2)) (s.regs.a.toNat % 2 = 1) ∧
    SetsAAndCarry .ral s (2 * s.regs.a.toNat % 256 + bit s.flags.cy) (128 ≤ s.regs.a.toNat) ∧
    SetsAAndCarry .rar s (s.regs.a.toNat / 2 + 128 * bit s.flags.cy) (s.regs.a.toNat % 2 = 1)

/-- R159's identities (the spec marks them as derived): ADD then SUB of the same other register restores A; SUB A and
XRA A clear A; ANA A and ORA A keep A. -/
def Obligations.ArithmeticIdentities : Prop :=
  ∀ s : State,
    (∀ r : Reg8, r ≠ .a → ∃ t u, exec (.addR r) s = .next t ∧ exec (.subR r) t = .next u ∧ SameRegsBut s u []) ∧
    (∀ i ∈ [Instr.subR .a, Instr.xraR .a], ∃ t, exec i s = .next t ∧ t.regs.a = 0 ∧
      t.flags = { z := true, s := false, p := true, cy := false, ac := false }) ∧
    (∀ i ∈ [Instr.anaR .a, Instr.oraR .a], ∃ t, exec i s = .next t ∧ t.regs.a = s.regs.a ∧ ZspOf s.regs.a t.flags ∧
      t.flags.cy = false ∧ t.flags.ac = false)

/-! ### Register pairs (42_regpair_arith.md) -/

/-- R180, R181: INX and DCX wrap modulo 65536 in every slot, SP too, and write no flag. -/
def Obligations.InxAndDcxWrap : Prop :=
  ∀ (s : State) (pp : RegPair),
    encode (.inx pp) = [BitVec.ofNat 8 (0x03 + 16 * pp.code.toNat)] ∧
    encode (.dcx pp) = [BitVec.ofNat 8 (0x0B + 16 * pp.code.toNat)] ∧
    PutsInPair (.inx pp) s pp ((pairValue s pp + 1) % 65536) ∧
    PutsInPair (.dcx pp) s pp ((pairValue s pp + 65535) % 65536)

/-- R182: DAD adds a pair or SP to HL modulo 65536; CY is the carry out of bit 15 and no other flag is written. -/
def Obligations.DadAddsToHL : Prop :=
  ∀ (s : State) (pp : RegPair),
    encode (.dad pp) = [BitVec.ofNat 8 (0x09 + 16 * pp.code.toNat)] ∧
    ∃ t, exec (.dad pp) s = .next t ∧ pairValue t .hl = (pairValue s .hl + pairValue s pp) % 65536 ∧
      (t.flags.cy = true ↔ 65535 < pairValue s .hl + pairValue s pp) ∧ t.flags.z = s.flags.z ∧ t.flags.s = s.flags.s ∧
      t.flags.p = s.flags.p ∧ t.flags.ac = s.flags.ac ∧ SameRegsBut s t [.h, .l] ∧ t.sp = s.sp ∧ t.pc = s.pc ∧
      SameMem s t ∧ SameRest s t

/-! ### The stack (43_stack.md) -/

/-- R190, R192, R193: PUSH of each pair and of PSW: low byte at the new SP, high byte above it; the fault with SP = 0
or 1. -/
def Obligations.PushStoresTheWordBelowSP : Prop :=
  ∀ s : State,
    (encode .pushB = [0xC5] ∧ PushesBytes .pushB s s.regs.b.toNat s.regs.c.toNat s.pc) ∧
    (encode .pushD = [0xD5] ∧ PushesBytes .pushD s s.regs.d.toNat s.regs.e.toNat s.pc) ∧
    (encode .pushH = [0xE5] ∧ PushesBytes .pushH s s.regs.h.toNat s.regs.l.toNat s.pc) ∧
    (encode .pushPsw = [0xF5] ∧ PushesBytes .pushPsw s s.regs.a.toNat
      (128 * bit s.flags.s + 64 * bit s.flags.z + 16 * bit s.flags.ac + 4 * bit s.flags.p + 2 + bit s.flags.cy) s.pc)

/-- R191, R194, R195: POP into each pair, and into A and the five flags; the fault with SP = 0xFFFE or 0xFFFF. -/
def Obligations.PopLoadsTheWordAtSP : Prop :=
  ∀ s : State,
    (encode .popB = [0xC1] ∧ PopsBytes .popB s fun t hi lo =>
      t.regs.b = hi ∧ t.regs.c = lo ∧ SameRegsBut s t [.b, .c] ∧ t.pc = s.pc ∧ t.flags = s.flags) ∧
    (encode .popD = [0xD1] ∧ PopsBytes .popD s fun t hi lo =>
      t.regs.d = hi ∧ t.regs.e = lo ∧ SameRegsBut s t [.d, .e] ∧ t.pc = s.pc ∧ t.flags = s.flags) ∧
    (encode .popH = [0xE1] ∧ PopsBytes .popH s fun t hi lo =>
      t.regs.h = hi ∧ t.regs.l = lo ∧ SameRegsBut s t [.h, .l] ∧ t.pc = s.pc ∧ t.flags = s.flags) ∧
    (encode .popPsw = [0xF1] ∧ PopsBytes .popPsw s fun t hi lo =>
      t.regs.a = hi ∧ SameRegsBut s t [.a] ∧ t.pc = s.pc ∧ t.flags.s = lo.getLsbD 7 ∧ t.flags.z = lo.getLsbD 6 ∧
        t.flags.ac = lo.getLsbD 4 ∧ t.flags.p = lo.getLsbD 2 ∧ t.flags.cy = lo.getLsbD 0)

/-- R191, R192 to R195, for any SP of 2 or more: a push followed at once by the pop of the same slot restores the pair,
or A and all five flags, and SP; a pop of another pair copies it. -/
def Obligations.PopUndoesPush : Prop :=
  ∀ s : State, 2 ≤ s.sp.toNat →
    (∀ x ∈ [(Instr.pushB, RegPair.bc), (.pushD, .de), (.pushH, .hl)],
      ∀ y ∈ [(Instr.popB, RegPair.bc), (.popD, .de), (.popH, .hl)],
        ∃ t u, exec x.1 s = .next t ∧ exec y.1 t = .next u ∧ u.pair y.2 = s.pair x.2 ∧ u.sp = s.sp ∧ u.flags = s.flags) ∧
    (∃ t u, exec .pushPsw s = .next t ∧ exec .popPsw t = .next u ∧ SameRegsBut s u [] ∧ u.flags = s.flags ∧ u.sp = s.sp)

/-- R196, R197: XTHL exchanges HL with the word at SP and keeps SP, and faults with SP = 0xFFFF; SPHL loads SP from HL,
any value. -/
def Obligations.XthlAndSphlMoveHL : Prop :=
  ∀ s : State, encode .xthl = [0xE3] ∧ encode .sphl = [0xF9] ∧
    (s.sp.toNat < 0xFFFF → ∃ t, exec .xthl s = .next t ∧ t.regs.l = s.byteAt s.sp ∧ t.regs.h = s.byteAt (s.sp + 1) ∧
      t.byteAt s.sp = s.regs.l ∧ t.byteAt (s.sp + 1) = s.regs.h ∧ SameMemBut s t [s.sp, s.sp + 1] ∧
      SameRegsBut s t [.h, .l] ∧ t.sp = s.sp ∧ t.pc = s.pc ∧ t.flags = s.flags ∧ SameRest s t) ∧
    (s.sp.toNat = 0xFFFF → exec .xthl s = .fault (.addressFault 0x10000)) ∧
    PutsInPair .sphl s .sp (pairValue s .hl)

/-! ### Control transfer (44_control_transfer.md) -/

/-- R201, R202, R232: JMP, its alias, and PCHL. -/
def Obligations.JumpsSetPC : Prop :=
  ∀ s : State,
    (∀ w, encode (.jmp w) = [0xC3, lo8 w, hi8 w] ∧ JumpsTo (.jmp w) s w) ∧
    (∀ w, encode (.jmpAlias w) = [0xCB, lo8 w, hi8 w] ∧ JumpsTo (.jmpAlias w) s w) ∧
    (encode .pchl = [0xE9] ∧ ∃ w : Word, w.toNat = pairValue s .hl ∧ JumpsTo .pchl s w)

/-- R200, R203 to R210: each conditional jump is taken exactly when its flag has its value, and otherwise does
nothing. -/
def Obligations.ConditionalJumpsTestTheirFlag : Prop :=
  ∀ (s : State) (w : Word),
    ∀ x ∈ [(Instr.jnz w, (0xC2 : Byte), s.flags.z, false), (.jz w, 0xCA, s.flags.z, true),
        (.jnc w, 0xD2, s.flags.cy, false), (.jc w, 0xDA, s.flags.cy, true), (.jpo w, 0xE2, s.flags.p, false),
        (.jpe w, 0xEA, s.flags.p, true), (.jp w, 0xF2, s.flags.s, false), (.jm w, 0xFA, s.flags.s, true)],
      encode x.1 = [x.2.1, lo8 w, hi8 w] ∧
      (x.2.2.1 = x.2.2.2 → JumpsTo x.1 s w) ∧ (x.2.2.1 ≠ x.2.2.2 → DoesNothing x.1 s)

/-- R211, R212, R231: CALL, its aliases and RST push PC, which is the address of the instruction after them, and jump,
whatever IE is. -/
def Obligations.CallsPushPCAndJump : Prop :=
  ∀ s : State,
    (∀ w, encode (.call w) = [0xCD, lo8 w, hi8 w] ∧
      PushesBytes (.call w) s (s.pc.toNat / 256) (s.pc.toNat % 256) w) ∧
    (∀ x w, encode (.callAlias x w) = [BitVec.ofNat 8 (0xCD + 16 * x.toNat), lo8 w, hi8 w] ∧
      PushesBytes (.callAlias x w) s (s.pc.toNat / 256) (s.pc.toNat % 256) w) ∧
    (∀ n, encode (.rst n) = [BitVec.ofNat 8 (0xC7 + 8 * n.toNat)] ∧
      PushesBytes (.rst n) s (s.pc.toNat / 256) (s.pc.toNat % 256) (BitVec.ofNat 16 (8 * n.toNat)))

/-- R200, R211, R213 to R220: each conditional call is a CALL exactly when its flag has its value, and otherwise does
nothing; taken costs the larger count, here that of the default table of R284 (log entry 10, PRESUMED). -/
def Obligations.ConditionalCallsTestTheirFlag : Prop :=
  ∀ (s : State) (w : Word),
    ∀ x ∈ [(Instr.cnz w, (0xC4 : Byte), s.flags.z, false), (.cz w, 0xCC, s.flags.z, true),
        (.cnc w, 0xD4, s.flags.cy, false), (.cc w, 0xDC, s.flags.cy, true), (.cpo w, 0xE4, s.flags.p, false),
        (.cpe w, 0xEC, s.flags.p, true), (.cp w, 0xF4, s.flags.s, false), (.cm w, 0xFC, s.flags.s, true)],
      encode x.1 = [x.2.1, lo8 w, hi8 w] ∧ tstates x.1 false < tstates x.1 true ∧
      (x.2.2.1 = x.2.2.2 → PushesBytes x.1 s (s.pc.toNat / 256) (s.pc.toNat % 256) w) ∧
      (x.2.2.1 ≠ x.2.2.2 → DoesNothing x.1 s)

/-- R221, R222: RET and its alias pop into PC and touch neither IE nor a flag. -/
def Obligations.ReturnsPopIntoPC : Prop :=
  ∀ s : State, (encode .ret = [0xC9] ∧ ReturnsByPop .ret s) ∧ (encode .retAlias = [0xD9] ∧ ReturnsByPop .retAlias s)

/-- R200, R221, R223 to R230: each conditional return is a RET exactly when its flag has its value, and otherwise does
nothing. That the two T-state counts differ is R223 to R230's; that taken is the larger is R283's, and rests here on the
default table of R284 (log entry 10, PRESUMED). -/
def Obligations.ConditionalReturnsTestTheirFlag : Prop :=
  ∀ s : State,
    ∀ x ∈ [(Instr.rnz, (0xC0 : Byte), s.flags.z, false), (.rz, 0xC8, s.flags.z, true),
        (.rnc, 0xD0, s.flags.cy, false), (.rc, 0xD8, s.flags.cy, true), (.rpo, 0xE0, s.flags.p, false),
        (.rpe, 0xE8, s.flags.p, true), (.rp, 0xF0, s.flags.s, false), (.rm, 0xF8, s.flags.s, true)],
      encode x.1 = [x.2.1] ∧ tstates x.1 false < tstates x.1 true ∧
      (x.2.2.1 = x.2.2.2 → ReturnsByPop x.1 s) ∧ (x.2.2.1 ≠ x.2.2.2 → DoesNothing x.1 s)

/-- R233, from R211, R212, R221, R222, R231: a call and then a return, from wherever the subroutine's RET stands (q),
come back to the instruction after the call with SP, the flags and the registers as before it. -/
def Obligations.ReturnComesBackAfterTheCall : Prop :=
  ∀ (s : State) (w q : Word) (x : BitVec 2) (n : BitVec 3), 2 ≤ s.sp.toNat →
    ∀ i ∈ [Instr.call w, Instr.callAlias x w, Instr.rst n], ∀ j ∈ [Instr.ret, Instr.retAlias],
      ∃ t u, exec i s = .next t ∧ exec j (t.setPc q) = .next u ∧ u.pc = s.pc ∧ u.sp = s.sp ∧ u.flags = s.flags ∧
        SameRegsBut s u []

/-! ### Input, output, machine control (45_io_and_machine_control.md) -/

/-- R240: IN puts the host's answer in A, with exactly one PortRead event; any answer the host has scheduled is the one
given. The answer where none is scheduled is a free value (log entry 6): nothing is said of it. -/
def Obligations.InPutsTheHostsAnswerInA : Prop :=
  ∀ (s : State) (n : Byte), encode (.inp n) = [0xDB, n] ∧
    ∃ t, exec (.inp n) s = .next t ∧ t.portEvents = s.portEvents ++ [.read n t.regs.a] ∧
      (∀ v rest, s.portAnswers = v :: rest → t.regs.a = v ∧ t.portAnswers = rest) ∧
      (s.portAnswers = [] → t.portAnswers = []) ∧ SameRegsBut s t [.a] ∧ t.sp = s.sp ∧ t.pc = s.pc ∧ t.flags = s.flags ∧
      SameMem s t ∧ t.ie = s.ie ∧ t.hostActions = s.hostActions

/-- R241: OUT makes exactly one PortWrite event with A, and changes nothing else. -/
def Obligations.OutHandsAToTheHost : Prop :=
  ∀ (s : State) (n : Byte), encode (.out n) = [0xD3, n] ∧
    ∃ t, exec (.out n) s = .next t ∧ t.portEvents = s.portEvents ++ [.write n s.regs.a] ∧ t.portAnswers = s.portAnswers ∧
      SameRegsBut s t [] ∧ t.sp = s.sp ∧ t.pc = s.pc ∧ t.flags = s.flags ∧ SameMem s t ∧ t.ie = s.ie ∧
      t.hostActions = s.hostActions

/-- R242, R243: EI sets and DI clears IE within their own step, and nothing else changes; an interrupt applied right
after EI is delivered, one applied right after DI has no effect. -/
def Obligations.EiAndDiTakeEffectAtOnce : Prop :=
  ∀ s : State, encode .ei = [0xFB] ∧ encode .di = [0xF3] ∧
    (∀ x ∈ [(Instr.ei, true), (Instr.di, false)],
      ∃ t, exec x.1 s = .next t ∧ t.ie = x.2 ∧ SameRegsBut s t [] ∧ t.sp = s.sp ∧ t.pc = s.pc ∧ t.flags = s.flags ∧
        SameMem s t ∧ t.portEvents = s.portEvents ∧ t.portAnswers = s.portAnswers ∧ t.hostActions = s.hostActions) ∧
    (∀ (t : State) (v : BitVec 3), exec .ei s = .next t → 2 ≤ s.sp.toNat →
      ∃ u, interrupt v t = .next u ∧ u.ie = false ∧ u.pc.toNat = 8 * v.toNat ∧ u.sp.toNat = s.sp.toNat - 2) ∧
    (∀ (t : State) (v : BitVec 3), exec .di s = .next t → interrupt v t = .next t)

/-- R244, R245, R246: NOP and its aliases change nothing; HLT changes nothing and reports halt, as no other instruction
does. -/
def Obligations.HaltAndNoOperation : Prop :=
  ∀ s : State, encode .nop = [0x00] ∧ encode .hlt = [0x76] ∧
    (∀ x, encode (.nopAlias x) = [BitVec.ofNat 8 (8 * x.toNat)] ∧ DoesNothing (.nopAlias x) s) ∧
    DoesNothing .nop s ∧ DoesNothing .hlt s ∧
    (∀ i t, exec i s = .next t → (t.halts = true ↔ i = .hlt))

/-! ### Interrupts (60_exceptions.md) -/

/-- R256: an interrupt applied while IE = 1: IE is cleared, PC pushed, PC is 8*v; A, the flags and every other register
are kept, and no T-state count is reported (what was reported before stands until the host's next action, log entry
8); with SP = 0 or 1 the push faults. While IE = 0 it has no effect at all. -/
def Obligations.InterruptDelivery : Prop :=
  ∀ (s : State) (v : BitVec 3),
    (s.ie = true → 2 ≤ s.sp.toNat → ∃ t, interrupt v s = .next t ∧ t.ie = false ∧ t.pc.toNat = 8 * v.toNat ∧
      t.sp.toNat = s.sp.toNat - 2 ∧
      (t.byteAt (s.sp - 2)).toNat = s.pc.toNat % 256 ∧ (t.byteAt (s.sp - 1)).toNat = s.pc.toNat / 256 ∧
      SameMemBut s t [s.sp - 2, s.sp - 1] ∧ SameRegsBut s t [] ∧ t.flags = s.flags ∧ t.report = s.report ∧
      t.portEvents = s.portEvents ∧ t.portAnswers = s.portAnswers ∧ t.hostActions = s.hostActions) ∧
    (s.ie = true → s.sp.toNat < 2 → interrupt v s = .fault (.addressFault ((s.sp.toNat : Int) - 2))) ∧
    (s.ie = false → interrupt v s = .next s)

/-- R257, as the host's next action (log entry 7): an interrupt applied while IE = 0 has no effect and is not remembered:
all that is left of it is that the host's action is over and reported nothing. -/
def Obligations.InterruptWithIEClearIsDropped : Prop :=
  ∀ (s : State) (v : BitVec 3) (rest : List HostAction), s.hostActions = .interrupt v :: rest → s.ie = false →
    step s = .next { s with hostActions := rest, report := none }

/-- R259, as the host's next two actions (log entry 7): of two interrupts between the same two steps the first is delivered and the second has no effect. -/
def Obligations.SecondInterruptInARowHasNoEffect : Prop :=
  ∀ (s : State) (v u : BitVec 3) (rest : List HostAction),
    s.hostActions = .interrupt v :: .interrupt u :: rest → s.ie = true → 2 ≤ s.sp.toNat →
      ∃ t t', step s = .next t ∧ step t = .next t' ∧ t'.pc.toNat = 8 * v.toNat ∧ t'.sp = t.sp ∧ t'.ie = false ∧
        SameRegsBut t t' [] ∧ t'.flags = t.flags ∧ SameMem t t' ∧ t'.hostActions = rest

/-- R260: RET after a delivery, from wherever the handler's RET stands (q), restores PC and SP and leaves IE at 0. -/
def Obligations.ReturnFromInterruptRestoresPC : Prop :=
  ∀ (s : State) (v : BitVec 3) (q : Word), s.ie = true → 2 ≤ s.sp.toNat →
    ∃ t u, interrupt v s = .next t ∧ exec .ret (t.setPc q) = .next u ∧ u.pc = s.pc ∧ u.sp = s.sp ∧ u.ie = false ∧
      u.flags = s.flags ∧ SameRegsBut s u []

/-- R29: IE is set by EI, cleared by DI and by a delivered interrupt, gates an interrupt, and is read by nothing else:
every instruction but EI and DI keeps it and does the same whatever it is. -/
def Obligations.InterruptEnableIsWrittenByEiDiAndDelivery : Prop :=
  (∀ (i : Instr) (s t : State), exec i s = .next t →
    t.ie = (if i = .ei then true else if i = .di then false else s.ie)) ∧
  (∀ (i : Instr) (s t : State) (b : Bool), exec i s = .next t → i ≠ .ei → i ≠ .di →
    exec i (s.setIe b) = .next (t.setIe b)) ∧
  (∀ (v : BitVec 3) (s t : State), interrupt v s = .next t →
    t.ie = false ∧ (s.ie = true → t.pc = restartAddr v) ∧ (s.ie = false → t = s))

/-! ### The whole machine -/

/-- R78, R9: where the host's next action is no interrupt and the bytes at PC decode to an instruction that ends at or
before 0xFFFE, a step is that instruction's operation with PC past it; where the instruction would have a byte at 0xFFFF
or beyond, the step faults in fetch. Where the next action is an interrupt, the step is that. Around either the model
takes the action off the host's list and clears the last report (log entries 7, 8). -/
def Obligations.StepRunsTheDecodedInstruction : Prop :=
  ∀ s : State,
    (∀ (i : Instr) (rest : List Byte), (∀ v l, s.hostActions ≠ .interrupt v :: l) →
      decode [s.byteAt s.pc, s.byteAt (s.pc + 1), s.byteAt (s.pc + 2)] = .ok (i, rest) →
        (s.pc.toNat + i.size ≤ 0xFFFF →
          step s =
            exec i { s with pc := s.pc + BitVec.ofNat 16 i.size, hostActions := s.hostActions.tail, report := none }) ∧
        (0xFFFF < s.pc.toNat + i.size → step s = .fault (.addressFault 0x10000))) ∧
    (∀ (v : BitVec 3) (l : List HostAction), s.hostActions = .interrupt v :: l →
      step s = interrupt v { s with hostActions := l, report := none })

/-- R251, R63: a step faults exactly in the cases of the table, with the integer the table names, fetch before
operation. -/
def Obligations.StepFaultsExactlyWhereTheTableSays : Prop :=
  ∀ (s : State) (f : Fault), step s = .fault f ↔ stepFault s = some f

/-- R253, R85, R262: no step is refused, in any state: every instruction may be executed at any time. -/
def Obligations.NoStepIsRefused : Prop :=
  ∀ (s : State) (r : Refusal), step s ≠ .refused r

/-- R36, R283, R284: a completed instruction reports the count of the T-state table (log entry 10: the default table,
PRESUMED), by whether its condition held, and halt exactly for HLT. -/
def Obligations.CompletedInstructionsReportTheirCount : Prop :=
  ∀ (i : Instr) (s t : State), exec i s = .next t →
    t.report = some { cycles := tstates i (taken i s.flags), halt := decide (i = .hlt) }

/-- R36: no rule reads the report: a step does the same whatever the last one reported. -/
def Obligations.NothingReadsTheReport : Prop :=
  ∀ (i : Instr) (s : State) (r : Option StepReport),
    exec i (s.setReport r) = exec i s ∧ step (s.setReport r) = step s

/-- R55: an instruction stores to no byte but those its rule names, and keeps IE's neighbours of the host's side: the
host's actions. -/
def Obligations.OnlyTheNamedBytesAreStored : Prop :=
  ∀ (i : Instr) (s t : State), exec i s = .next t → SameMemBut s t (storedBytes i s) ∧ t.hostActions = s.hostActions

/-- R26: an instruction writes no flag outside its row of the table. -/
def Obligations.OnlyTheNamedFlagsAreWritten : Prop :=
  ∀ (i : Instr) (s t : State), exec i s = .next t →
    match flagRow i with
    | .all => True
    | .allButCarry => t.flags.cy = s.flags.cy
    | .carryOnly => t.flags.z = s.flags.z ∧ t.flags.s = s.flags.s ∧ t.flags.p = s.flags.p ∧ t.flags.ac = s.flags.ac
    | .none => t.flags = s.flags

/-- R57: only IN and OUT reach a port; the record of events only grows, by one event an IN or OUT. -/
def Obligations.OnlyInAndOutReachAPort : Prop :=
  ∀ (i : Instr) (s t : State), exec i s = .next t →
    ((∀ n, i ≠ .inp n) → (∀ n, i ≠ .out n) → t.portEvents = s.portEvents ∧ t.portAnswers = s.portAnswers) ∧
    (∀ n, i = .inp n ∨ i = .out n → ∃ e, t.portEvents = s.portEvents ++ [e])

/-- R60 (derived there): every byte that any instruction stores, an opcode or an operand byte of the next instruction
among them, is in memory when it completes, and is what a fetch at that address then reads. -/
def Obligations.AStoreIsSeenByTheNextFetch : Prop :=
  ∀ (i : Instr) (s t : State), exec i s = .next t → ∀ x ∈ storedData i s,
    t.byteAt x.1 = x.2 ∧
    (x.1.toNat < 0xFFFF → ∃ u, fetchByte (t.setPc x.1) = .ok (x.2, u) ∧ u.pc.toNat = x.1.toNat + 1)

/-- The invariant of the next statement, the model's own (log entries 4, 8, 10), holds right after reset. -/
def Obligations.ResetMeetsTheInvariant : Prop := Inv State.reset

/-- From every state that meets the invariant, a step that completes gives a state that meets it: memory is in the
model's canonical form (log entry 4), and a report in State (log entry 8) is that of some instruction, with its count
in the default T-state table (log entry 10, PRESUMED) and halt exactly for HLT. The invariant is the model's own; no rule
states it. -/
def Obligations.EveryStepKeepsTheInvariant : Prop :=
  ∀ s t : State, Inv s → step s = .next t → Inv t

/-! ### Reset and the end of a run (70_reset_and_hazards.md) -/

/-- R280 with its open parameters, MEM_FILL among them: the registers, SP and the flags are the caller's, PC the
caller's or 0x0000, IE is 0, memory is the images in order over the fill byte, nothing has been reported. That an image
with a byte past 0xFFFF, which R280 calls no legal parameter, gives no machine is the model's reading (log entry 14); the
report and the record of events are its own carriers (log entries 8, 9). -/
def Obligations.ResetBuildsAFreshMachine : Prop :=
  (∀ (fill : Byte) (image : List (Nat × List Byte)) (g : ResetRegs) (pc : Word),
    ((∃ x ∈ image, x.2 ≠ [] ∧ 0x10000 < x.1 + x.2.length) → State.resetWith fill image g pc = none) ∧
    ((∀ x ∈ image, x.2 = [] ∨ x.1 + x.2.length ≤ 0x10000) →
      ∃ s, State.resetWith fill image g pc = some s ∧ s.regs = g.regs ∧ s.sp = g.sp ∧ s.flags = g.flags ∧ s.pc = pc ∧
        s.ie = false ∧ s.report = none ∧ s.portEvents = [] ∧ Memory.wf s.mem ∧
        ∀ a : Word, s.byteAt a = (image.foldl (fun v x =>
          if x.1 ≤ a.toNat then (x.2[a.toNat - x.1]?).getD v else v) fill))) ∧
  State.reset.pc = 0x0000 ∧ State.reset.ie = false

/-- R285: the three ends of a run, each tied to the machine's own actions. Halted: after some number of actions the
machine is in the end state, the last action reported halt and none before it did. Stopped: the machine has done all k
actions and none reported halt. Faulted: the machine faults within the k actions, and no action before reported halt.
A run in which the machine does not fault has an end state. It is never refused. (That stepping past a halt is defined
while a run is not is log entry 17.) -/
def Obligations.ARunEndsAtHaltFaultOrStop : Prop :=
  ∀ (k : Nat) (s : State),
    (∀ t, run k s = .halted t →
      ∃ j, j < k ∧ core.run (j + 1) s = .next t ∧ t.halts = true ∧ NoHaltWithin j s) ∧
    (∀ t, run k s = .stopped t → core.run k s = .next t ∧ NoHaltWithin k s) ∧
    (∀ f, run k s = .faulted f → core.run k s = .fault f ∧ NoHaltWithin k s) ∧
    (SafeFor k s → ∃ t, run k s = .halted t ∨ run k s = .stopped t) ∧
    (∀ r, run k s ≠ .refused r)
end

