-- ==== Sys2Proof/Laws/Memory.lean ====
section
/-! SUPPORT. Memory as a list of cells: reading back what was written, reading elsewhere, and the canonical form
that every write keeps. Reads and writes obey the two laws on every list, canonical or not. -/

namespace Sys2Proof.Machine

theorem memGet_insert (m : Memory) (a b : Nat) (v : Byte) :
    memGet (memInsert m a v) b = if a = b then v else memGet m b := by
  induction m with
  | nil => simp [memInsert, memGet]
  | cons x rest ih =>
    simp only [memInsert]
    split
    · simp [memGet]
    · split
      · next h => subst h; simp only [memGet]; split <;> simp_all
      · simp only [memGet, ih]; split <;> simp_all; omega

theorem memGet_erase (m : Memory) (a b : Nat) :
    memGet (m.filter (fun x => x.1 != a)) b = if a = b then Config.unlistedByte else memGet m b := by
  induction m with
  | nil => simp [memGet]
  | cons x rest ih =>
    by_cases h : x.1 = a
    · simp only [List.filter, h, bne_self_eq_false, ih, memGet]
      split <;> rfl
    · have h' : (x.1 != a) = true := by simpa using h
      simp only [List.filter, h', memGet, ih]
      by_cases hb : x.1 = b
      · have : ¬ a = b := fun e => h (hb.trans e.symm)
        simp [hb, this]
      · simp [hb]

/-- Read after write, at the same address and elsewhere (R51, R58). -/
theorem memGet_memSet (m : Memory) (a b : Nat) (v : Byte) :
    memGet (memSet m a v) b = if a = b then v else memGet m b := by
  unfold memSet
  split
  · next h => rw [memGet_erase, h]
  · exact memGet_insert m a b v

theorem mem_memInsert {m : Memory} {a : Nat} {v : Byte} {y : Host.Cell} (h : y ∈ memInsert m a v) :
    y = (a, v) ∨ y ∈ m := by
  induction m with
  | nil => simpa [memInsert] using h
  | cons x rest ih =>
    simp only [memInsert] at h
    split at h
    · simpa using h
    · split at h
      · rcases List.mem_cons.1 h with h | h <;> simp [h]
      · rcases List.mem_cons.1 h with h | h
        · simp [h]
        · rcases ih h with h | h <;> simp [h]

theorem memInsert_sorted {m : Memory} (a : Nat) (v : Byte) (h : m.Pairwise (fun x y => x.1 < y.1)) :
    (memInsert m a v).Pairwise (fun x y => x.1 < y.1) := by
  induction m with
  | nil => simp [memInsert]
  | cons x rest ih =>
    obtain ⟨hx, hr⟩ := List.pairwise_cons.1 h
    simp only [memInsert]
    split
    · next hlt =>
      refine List.pairwise_cons.2 ⟨fun y hy => ?_, h⟩
      rcases List.mem_cons.1 hy with rfl | hy
      · exact hlt
      · exact Nat.lt_trans hlt (hx y hy)
    · split
      · next heq => exact List.pairwise_cons.2 ⟨fun y hy => heq ▸ hx y hy, hr⟩
      · refine List.pairwise_cons.2 ⟨fun y hy => ?_, ih hr⟩
        rcases mem_memInsert hy with rfl | hy
        · simp only; omega
        · exact hx y hy

/-- Every write inside the address space keeps the canonical form. -/
theorem memSet_wf {m : Memory} {a : Nat} (v : Byte) (ha : a < Config.memSize) (h : Memory.wf m) :
    Memory.wf (memSet m a v) := by
  unfold memSet
  split
  · exact ⟨h.1.filter _, fun x hx => h.2 x (List.mem_filter.1 hx).1⟩
  · next hv =>
    refine ⟨memInsert_sorted a v h.1, fun x hx => ?_⟩
    rcases mem_memInsert hx with rfl | hx
    · exact ⟨ha, hv⟩
    · exact h.2 x hx

/-- The byte written is read back, every other byte reads as before (R51). -/
theorem State.byteAt_setByte (s : State) (a b : Word) (v : Byte) :
    (s.setByte a v).byteAt b = if a = b then v else s.byteAt b := by
  show memGet (memSet s.mem a.toNat v) b.toNat = _
  rw [memGet_memSet]
  simp only [BitVec.toNat_inj]
  rfl

theorem State.setByte_wf {s : State} (a : Word) (v : Byte) (h : Memory.wf s.mem) :
    Memory.wf (s.setByte a v).mem :=
  memSet_wf v a.isLt h

end Sys2Proof.Machine
end

