-- ==== Sys2Proof/Laws/State.lean ====
section
/-! SUPPORT. One lemma per field per update of State, true by rfl, so that no later proof unfolds a record update. -/

namespace Sys2Proof.Machine

@[simp] theorem State.setRegs_regs (s : State) (v : Regs) : (s.setRegs v).regs = v := rfl
@[simp] theorem State.setRegs_sp (s : State) (v : Regs) : (s.setRegs v).sp = s.sp := rfl
@[simp] theorem State.setRegs_pc (s : State) (v : Regs) : (s.setRegs v).pc = s.pc := rfl
@[simp] theorem State.setRegs_flags (s : State) (v : Regs) : (s.setRegs v).flags = s.flags := rfl
@[simp] theorem State.setRegs_ie (s : State) (v : Regs) : (s.setRegs v).ie = s.ie := rfl
@[simp] theorem State.setRegs_mem (s : State) (v : Regs) : (s.setRegs v).mem = s.mem := rfl
@[simp] theorem State.setRegs_report (s : State) (v : Regs) : (s.setRegs v).report = s.report := rfl
@[simp] theorem State.setRegs_portEvents (s : State) (v : Regs) : (s.setRegs v).portEvents = s.portEvents := rfl
@[simp] theorem State.setRegs_portAnswers (s : State) (v : Regs) : (s.setRegs v).portAnswers = s.portAnswers := rfl
@[simp] theorem State.setRegs_hostActions (s : State) (v : Regs) : (s.setRegs v).hostActions = s.hostActions := rfl

@[simp] theorem State.setSp_regs (s : State) (v : Word) : (s.setSp v).regs = s.regs := rfl
@[simp] theorem State.setSp_sp (s : State) (v : Word) : (s.setSp v).sp = v := rfl
@[simp] theorem State.setSp_pc (s : State) (v : Word) : (s.setSp v).pc = s.pc := rfl
@[simp] theorem State.setSp_flags (s : State) (v : Word) : (s.setSp v).flags = s.flags := rfl
@[simp] theorem State.setSp_ie (s : State) (v : Word) : (s.setSp v).ie = s.ie := rfl
@[simp] theorem State.setSp_mem (s : State) (v : Word) : (s.setSp v).mem = s.mem := rfl
@[simp] theorem State.setSp_report (s : State) (v : Word) : (s.setSp v).report = s.report := rfl
@[simp] theorem State.setSp_portEvents (s : State) (v : Word) : (s.setSp v).portEvents = s.portEvents := rfl
@[simp] theorem State.setSp_portAnswers (s : State) (v : Word) : (s.setSp v).portAnswers = s.portAnswers := rfl
@[simp] theorem State.setSp_hostActions (s : State) (v : Word) : (s.setSp v).hostActions = s.hostActions := rfl

@[simp] theorem State.setPc_regs (s : State) (v : Word) : (s.setPc v).regs = s.regs := rfl
@[simp] theorem State.setPc_sp (s : State) (v : Word) : (s.setPc v).sp = s.sp := rfl
@[simp] theorem State.setPc_pc (s : State) (v : Word) : (s.setPc v).pc = v := rfl
@[simp] theorem State.setPc_flags (s : State) (v : Word) : (s.setPc v).flags = s.flags := rfl
@[simp] theorem State.setPc_ie (s : State) (v : Word) : (s.setPc v).ie = s.ie := rfl
@[simp] theorem State.setPc_mem (s : State) (v : Word) : (s.setPc v).mem = s.mem := rfl
@[simp] theorem State.setPc_report (s : State) (v : Word) : (s.setPc v).report = s.report := rfl
@[simp] theorem State.setPc_portEvents (s : State) (v : Word) : (s.setPc v).portEvents = s.portEvents := rfl
@[simp] theorem State.setPc_portAnswers (s : State) (v : Word) : (s.setPc v).portAnswers = s.portAnswers := rfl
@[simp] theorem State.setPc_hostActions (s : State) (v : Word) : (s.setPc v).hostActions = s.hostActions := rfl

@[simp] theorem State.setFlags_regs (s : State) (v : Flags) : (s.setFlags v).regs = s.regs := rfl
@[simp] theorem State.setFlags_sp (s : State) (v : Flags) : (s.setFlags v).sp = s.sp := rfl
@[simp] theorem State.setFlags_pc (s : State) (v : Flags) : (s.setFlags v).pc = s.pc := rfl
@[simp] theorem State.setFlags_flags (s : State) (v : Flags) : (s.setFlags v).flags = v := rfl
@[simp] theorem State.setFlags_ie (s : State) (v : Flags) : (s.setFlags v).ie = s.ie := rfl
@[simp] theorem State.setFlags_mem (s : State) (v : Flags) : (s.setFlags v).mem = s.mem := rfl
@[simp] theorem State.setFlags_report (s : State) (v : Flags) : (s.setFlags v).report = s.report := rfl
@[simp] theorem State.setFlags_portEvents (s : State) (v : Flags) : (s.setFlags v).portEvents = s.portEvents := rfl
@[simp] theorem State.setFlags_portAnswers (s : State) (v : Flags) : (s.setFlags v).portAnswers = s.portAnswers := rfl
@[simp] theorem State.setFlags_hostActions (s : State) (v : Flags) : (s.setFlags v).hostActions = s.hostActions := rfl

@[simp] theorem State.setIe_regs (s : State) (v : Bool) : (s.setIe v).regs = s.regs := rfl
@[simp] theorem State.setIe_sp (s : State) (v : Bool) : (s.setIe v).sp = s.sp := rfl
@[simp] theorem State.setIe_pc (s : State) (v : Bool) : (s.setIe v).pc = s.pc := rfl
@[simp] theorem State.setIe_flags (s : State) (v : Bool) : (s.setIe v).flags = s.flags := rfl
@[simp] theorem State.setIe_ie (s : State) (v : Bool) : (s.setIe v).ie = v := rfl
@[simp] theorem State.setIe_mem (s : State) (v : Bool) : (s.setIe v).mem = s.mem := rfl
@[simp] theorem State.setIe_report (s : State) (v : Bool) : (s.setIe v).report = s.report := rfl
@[simp] theorem State.setIe_portEvents (s : State) (v : Bool) : (s.setIe v).portEvents = s.portEvents := rfl
@[simp] theorem State.setIe_portAnswers (s : State) (v : Bool) : (s.setIe v).portAnswers = s.portAnswers := rfl
@[simp] theorem State.setIe_hostActions (s : State) (v : Bool) : (s.setIe v).hostActions = s.hostActions := rfl

@[simp] theorem State.setMem_regs (s : State) (v : Memory) : (s.setMem v).regs = s.regs := rfl
@[simp] theorem State.setMem_sp (s : State) (v : Memory) : (s.setMem v).sp = s.sp := rfl
@[simp] theorem State.setMem_pc (s : State) (v : Memory) : (s.setMem v).pc = s.pc := rfl
@[simp] theorem State.setMem_flags (s : State) (v : Memory) : (s.setMem v).flags = s.flags := rfl
@[simp] theorem State.setMem_ie (s : State) (v : Memory) : (s.setMem v).ie = s.ie := rfl
@[simp] theorem State.setMem_mem (s : State) (v : Memory) : (s.setMem v).mem = v := rfl
@[simp] theorem State.setMem_report (s : State) (v : Memory) : (s.setMem v).report = s.report := rfl
@[simp] theorem State.setMem_portEvents (s : State) (v : Memory) : (s.setMem v).portEvents = s.portEvents := rfl
@[simp] theorem State.setMem_portAnswers (s : State) (v : Memory) : (s.setMem v).portAnswers = s.portAnswers := rfl
@[simp] theorem State.setMem_hostActions (s : State) (v : Memory) : (s.setMem v).hostActions = s.hostActions := rfl

@[simp] theorem State.setReport_regs (s : State) (v : Option StepReport) : (s.setReport v).regs = s.regs := rfl
@[simp] theorem State.setReport_sp (s : State) (v : Option StepReport) : (s.setReport v).sp = s.sp := rfl
@[simp] theorem State.setReport_pc (s : State) (v : Option StepReport) : (s.setReport v).pc = s.pc := rfl
@[simp] theorem State.setReport_flags (s : State) (v : Option StepReport) : (s.setReport v).flags = s.flags := rfl
@[simp] theorem State.setReport_ie (s : State) (v : Option StepReport) : (s.setReport v).ie = s.ie := rfl
@[simp] theorem State.setReport_mem (s : State) (v : Option StepReport) : (s.setReport v).mem = s.mem := rfl
@[simp] theorem State.setReport_report (s : State) (v : Option StepReport) : (s.setReport v).report = v := rfl
@[simp] theorem State.setReport_portEvents (s : State) (v : Option StepReport) : (s.setReport v).portEvents = s.portEvents := rfl
@[simp] theorem State.setReport_portAnswers (s : State) (v : Option StepReport) : (s.setReport v).portAnswers = s.portAnswers := rfl
@[simp] theorem State.setReport_hostActions (s : State) (v : Option StepReport) : (s.setReport v).hostActions = s.hostActions := rfl

@[simp] theorem State.setPortEvents_regs (s : State) (v : List PortEvent) : (s.setPortEvents v).regs = s.regs := rfl
@[simp] theorem State.setPortEvents_sp (s : State) (v : List PortEvent) : (s.setPortEvents v).sp = s.sp := rfl
@[simp] theorem State.setPortEvents_pc (s : State) (v : List PortEvent) : (s.setPortEvents v).pc = s.pc := rfl
@[simp] theorem State.setPortEvents_flags (s : State) (v : List PortEvent) : (s.setPortEvents v).flags = s.flags := rfl
@[simp] theorem State.setPortEvents_ie (s : State) (v : List PortEvent) : (s.setPortEvents v).ie = s.ie := rfl
@[simp] theorem State.setPortEvents_mem (s : State) (v : List PortEvent) : (s.setPortEvents v).mem = s.mem := rfl
@[simp] theorem State.setPortEvents_report (s : State) (v : List PortEvent) : (s.setPortEvents v).report = s.report := rfl
@[simp] theorem State.setPortEvents_portEvents (s : State) (v : List PortEvent) : (s.setPortEvents v).portEvents = v := rfl
@[simp] theorem State.setPortEvents_portAnswers (s : State) (v : List PortEvent) : (s.setPortEvents v).portAnswers = s.portAnswers := rfl
@[simp] theorem State.setPortEvents_hostActions (s : State) (v : List PortEvent) : (s.setPortEvents v).hostActions = s.hostActions := rfl

@[simp] theorem State.setPortAnswers_regs (s : State) (v : List Byte) : (s.setPortAnswers v).regs = s.regs := rfl
@[simp] theorem State.setPortAnswers_sp (s : State) (v : List Byte) : (s.setPortAnswers v).sp = s.sp := rfl
@[simp] theorem State.setPortAnswers_pc (s : State) (v : List Byte) : (s.setPortAnswers v).pc = s.pc := rfl
@[simp] theorem State.setPortAnswers_flags (s : State) (v : List Byte) : (s.setPortAnswers v).flags = s.flags := rfl
@[simp] theorem State.setPortAnswers_ie (s : State) (v : List Byte) : (s.setPortAnswers v).ie = s.ie := rfl
@[simp] theorem State.setPortAnswers_mem (s : State) (v : List Byte) : (s.setPortAnswers v).mem = s.mem := rfl
@[simp] theorem State.setPortAnswers_report (s : State) (v : List Byte) : (s.setPortAnswers v).report = s.report := rfl
@[simp] theorem State.setPortAnswers_portEvents (s : State) (v : List Byte) : (s.setPortAnswers v).portEvents = s.portEvents := rfl
@[simp] theorem State.setPortAnswers_portAnswers (s : State) (v : List Byte) : (s.setPortAnswers v).portAnswers = v := rfl
@[simp] theorem State.setPortAnswers_hostActions (s : State) (v : List Byte) : (s.setPortAnswers v).hostActions = s.hostActions := rfl

@[simp] theorem State.setHostActions_regs (s : State) (v : List HostAction) : (s.setHostActions v).regs = s.regs := rfl
@[simp] theorem State.setHostActions_sp (s : State) (v : List HostAction) : (s.setHostActions v).sp = s.sp := rfl
@[simp] theorem State.setHostActions_pc (s : State) (v : List HostAction) : (s.setHostActions v).pc = s.pc := rfl
@[simp] theorem State.setHostActions_flags (s : State) (v : List HostAction) : (s.setHostActions v).flags = s.flags := rfl
@[simp] theorem State.setHostActions_ie (s : State) (v : List HostAction) : (s.setHostActions v).ie = s.ie := rfl
@[simp] theorem State.setHostActions_mem (s : State) (v : List HostAction) : (s.setHostActions v).mem = s.mem := rfl
@[simp] theorem State.setHostActions_report (s : State) (v : List HostAction) : (s.setHostActions v).report = s.report := rfl
@[simp] theorem State.setHostActions_portEvents (s : State) (v : List HostAction) : (s.setHostActions v).portEvents = s.portEvents := rfl
@[simp] theorem State.setHostActions_portAnswers (s : State) (v : List HostAction) : (s.setHostActions v).portAnswers = s.portAnswers := rfl
@[simp] theorem State.setHostActions_hostActions (s : State) (v : List HostAction) : (s.setHostActions v).hostActions = v := rfl

/-! The updates built on these. -/

@[simp] theorem State.setReg_sp (s : State) (r : Reg8) (v : Byte) : (s.setReg r v).sp = s.sp := rfl
@[simp] theorem State.setReg_pc (s : State) (r : Reg8) (v : Byte) : (s.setReg r v).pc = s.pc := rfl
@[simp] theorem State.setReg_flags (s : State) (r : Reg8) (v : Byte) : (s.setReg r v).flags = s.flags := rfl
@[simp] theorem State.setReg_ie (s : State) (r : Reg8) (v : Byte) : (s.setReg r v).ie = s.ie := rfl
@[simp] theorem State.setReg_mem (s : State) (r : Reg8) (v : Byte) : (s.setReg r v).mem = s.mem := rfl
@[simp] theorem State.setReg_report (s : State) (r : Reg8) (v : Byte) : (s.setReg r v).report = s.report := rfl
@[simp] theorem State.setReg_portEvents (s : State) (r : Reg8) (v : Byte) : (s.setReg r v).portEvents = s.portEvents := rfl
@[simp] theorem State.setReg_portAnswers (s : State) (r : Reg8) (v : Byte) : (s.setReg r v).portAnswers = s.portAnswers := rfl
@[simp] theorem State.setReg_hostActions (s : State) (r : Reg8) (v : Byte) : (s.setReg r v).hostActions = s.hostActions := rfl

@[simp] theorem State.setByte_regs (s : State) (a : Word) (v : Byte) : (s.setByte a v).regs = s.regs := rfl
@[simp] theorem State.setByte_sp (s : State) (a : Word) (v : Byte) : (s.setByte a v).sp = s.sp := rfl
@[simp] theorem State.setByte_pc (s : State) (a : Word) (v : Byte) : (s.setByte a v).pc = s.pc := rfl
@[simp] theorem State.setByte_flags (s : State) (a : Word) (v : Byte) : (s.setByte a v).flags = s.flags := rfl
@[simp] theorem State.setByte_ie (s : State) (a : Word) (v : Byte) : (s.setByte a v).ie = s.ie := rfl
@[simp] theorem State.setByte_report (s : State) (a : Word) (v : Byte) : (s.setByte a v).report = s.report := rfl
@[simp] theorem State.setByte_portEvents (s : State) (a : Word) (v : Byte) : (s.setByte a v).portEvents = s.portEvents := rfl
@[simp] theorem State.setByte_portAnswers (s : State) (a : Word) (v : Byte) : (s.setByte a v).portAnswers = s.portAnswers := rfl
@[simp] theorem State.setByte_hostActions (s : State) (a : Word) (v : Byte) : (s.setByte a v).hostActions = s.hostActions := rfl

@[simp] theorem State.setMemOperand_regs (s : State) (v : Byte) : (s.setMemOperand v).regs = s.regs := rfl
@[simp] theorem State.setMemOperand_sp (s : State) (v : Byte) : (s.setMemOperand v).sp = s.sp := rfl
@[simp] theorem State.setMemOperand_pc (s : State) (v : Byte) : (s.setMemOperand v).pc = s.pc := rfl
@[simp] theorem State.setMemOperand_flags (s : State) (v : Byte) : (s.setMemOperand v).flags = s.flags := rfl
@[simp] theorem State.setMemOperand_ie (s : State) (v : Byte) : (s.setMemOperand v).ie = s.ie := rfl
@[simp] theorem State.setMemOperand_report (s : State) (v : Byte) : (s.setMemOperand v).report = s.report := rfl
@[simp] theorem State.setMemOperand_portEvents (s : State) (v : Byte) : (s.setMemOperand v).portEvents = s.portEvents := rfl
@[simp] theorem State.setMemOperand_portAnswers (s : State) (v : Byte) : (s.setMemOperand v).portAnswers = s.portAnswers := rfl
@[simp] theorem State.setMemOperand_hostActions (s : State) (v : Byte) : (s.setMemOperand v).hostActions = s.hostActions := rfl

@[simp] theorem State.setReg_regs (s : State) (r : Reg8) (v : Byte) : (s.setReg r v).regs = s.regs.set r v := rfl

@[simp] theorem State.setPair_pc (s : State) (pp : RegPair) (w : Word) : (s.setPair pp w).pc = s.pc := by
  cases pp <;> rfl
@[simp] theorem State.setPair_flags (s : State) (pp : RegPair) (w : Word) : (s.setPair pp w).flags = s.flags := by
  cases pp <;> rfl
@[simp] theorem State.setPair_ie (s : State) (pp : RegPair) (w : Word) : (s.setPair pp w).ie = s.ie := by
  cases pp <;> rfl
@[simp] theorem State.setPair_mem (s : State) (pp : RegPair) (w : Word) : (s.setPair pp w).mem = s.mem := by
  cases pp <;> rfl
@[simp] theorem State.setPair_report (s : State) (pp : RegPair) (w : Word) : (s.setPair pp w).report = s.report := by
  cases pp <;> rfl
@[simp] theorem State.setPair_portEvents (s : State) (pp : RegPair) (w : Word) : (s.setPair pp w).portEvents = s.portEvents := by
  cases pp <;> rfl
@[simp] theorem State.setPair_portAnswers (s : State) (pp : RegPair) (w : Word) : (s.setPair pp w).portAnswers = s.portAnswers := by
  cases pp <;> rfl
@[simp] theorem State.setPair_hostActions (s : State) (pp : RegPair) (w : Word) : (s.setPair pp w).hostActions = s.hostActions := by
  cases pp <;> rfl

@[simp] theorem State.setPsw_sp (s : State) (w : Word) : (s.setPsw w).sp = s.sp := rfl
@[simp] theorem State.setPsw_pc (s : State) (w : Word) : (s.setPsw w).pc = s.pc := rfl
@[simp] theorem State.setPsw_ie (s : State) (w : Word) : (s.setPsw w).ie = s.ie := rfl
@[simp] theorem State.setPsw_mem (s : State) (w : Word) : (s.setPsw w).mem = s.mem := rfl
@[simp] theorem State.setPsw_report (s : State) (w : Word) : (s.setPsw w).report = s.report := rfl
@[simp] theorem State.setPsw_portEvents (s : State) (w : Word) : (s.setPsw w).portEvents = s.portEvents := rfl
@[simp] theorem State.setPsw_portAnswers (s : State) (w : Word) : (s.setPsw w).portAnswers = s.portAnswers := rfl
@[simp] theorem State.setPsw_hostActions (s : State) (w : Word) : (s.setPsw w).hostActions = s.hostActions := rfl

/-! What one register reads as after a write of another (R20: no register is banked or aliased). -/

@[simp] theorem Regs.get_set (g : Regs) (r q : Reg8) (v : Byte) :
    (g.set r v).get q = if q = r then v else g.get q := by
  cases r <;> cases q <;> rfl

theorem State.reg_setReg (s : State) (r q : Reg8) (v : Byte) :
    (s.setReg r v).reg q = if q = r then v else s.reg q := Regs.get_set s.regs r q v

/-- Two register files that agree register by register are equal. -/
theorem Regs.ext_get {g h : Regs} (e : ∀ r, g.get r = h.get r) : g = h := by
  cases g; cases h
  simpa [Regs.get] using And.intro (e .a) (And.intro (e .b) (And.intro (e .c) (And.intro (e .d)
    (And.intro (e .e) (And.intro (e .h) (e .l))))))

end Sys2Proof.Machine
end

