-- ==== Sys2Proof/Laws/Ops.lean ====
section
/-! SUPPORT. One lemma per shared operation that says everything it can do: the checked range, the 16-bit
accesses, push and pop, call and return, and taking an interrupt. -/

namespace Sys2Proof.Machine

/-! ### The checked range (R6) -/

theorem chk16_ofNat {n : Nat} (h : n ≤ 0xFFFF) : chk16 (n : Int) = .ok (BitVec.ofNat 16 n) := by
  have : n < Config.memSize := by show n < 65536; omega
  exact if_pos this

/-- `chk16(x)` says: x when 0 <= x <= 0xFFFF, otherwise the fault that carries x (R6). -/
theorem chk16_eq (x : Int) :
    chk16 x = if 0 ≤ x ∧ x ≤ 0xFFFF then .ok (BitVec.ofNat 16 x.toNat) else .error (.addressFault x) := by
  split
  · next h =>
    obtain ⟨n, rfl⟩ := Int.eq_ofNat_of_zero_le h.1
    exact chk16_ofNat (by omega)
  · next h =>
    cases x with
    | ofNat n =>
      have : ¬ n < Config.memSize := by
        show ¬ n < 65536
        simp only [Int.ofNat_eq_natCast] at h
        omega
      exact if_neg this
    | negSucc n => rfl

@[simp] theorem chk16_toNat (a : Word) : chk16 (a.toNat : Int) = .ok a := by
  rw [chk16_ofNat (by have := a.isLt; omega)]
  simp

/-- `chk16(a + 1)` for an address: the next address, or the fault past the last one. -/
theorem chk16_succ (a : Word) :
    chk16 ((a.toNat : Int) + 1) =
      if a.toNat = 0xFFFF then .error (.addressFault 0x10000) else .ok (a + 1) := by
  have ha := a.isLt
  split
  · next h =>
    have e : (a.toNat : Int) + 1 = 0x10000 := by omega
    rw [e]
    rfl
  · next h =>
    have e : (a.toNat : Int) + 1 = ((a.toNat + 1 : Nat) : Int) := by omega
    rw [e, chk16_ofNat (by omega)]
    rfl

/-- `chk16(a + 2)` for an address other than the last (R191). -/
theorem chk16_add2 {a : Word} (h : a.toNat ≠ 0xFFFF) :
    chk16 ((a.toNat : Int) + 2) =
      if a.toNat = 0xFFFE then .error (.addressFault 0x10000) else .ok (a + 2) := by
  have ha := a.isLt
  split
  · next h =>
    have e : (a.toNat : Int) + 2 = 0x10000 := by omega
    rw [e]
    rfl
  · next h =>
    have e : (a.toNat : Int) + 2 = ((a.toNat + 2 : Nat) : Int) := by omega
    rw [e, chk16_ofNat (by omega)]
    rfl

/-- `chk16(a - 2)` for an address (R190). -/
theorem chk16_sub2 (a : Word) :
    chk16 ((a.toNat : Int) - 2) =
      if a.toNat < 2 then .error (.addressFault ((a.toNat : Int) - 2)) else .ok (a - 2) := by
  have ha := a.isLt
  split
  · next h =>
    have : ¬ ((0 : Int) ≤ (a.toNat : Int) - 2 ∧ (a.toNat : Int) - 2 ≤ 0xFFFF) := by omega
    rw [chk16_eq, if_neg this]
  · next h =>
    have e : (a.toNat : Int) - 2 = ((a.toNat - 2 : Nat) : Int) := by omega
    rw [e, chk16_ofNat (by omega)]
    congr 1
    apply BitVec.eq_of_toNat_eq
    have h2 : (2 : Word).toNat = 2 := rfl
    rw [BitVec.toNat_ofNat, BitVec.toNat_sub, h2]
    omega

/-- The address one above `a - 2` is `a - 1`, where `a - 2` is in range. -/
theorem toNat_sub2_succ {a : Word} (h : ¬ a.toNat < 2) :
    (((a - 2 : Word).toNat : Int)) + 1 = ((a - 1 : Word).toNat : Int) := by
  have ha := a.isLt
  have h1 : (1 : Word).toNat = 1 := rfl
  have h2 : (2 : Word).toNat = 2 := rfl
  rw [BitVec.toNat_sub, BitVec.toNat_sub, h1, h2]
  omega

/-! ### Memory accesses (R51, R52) -/

@[simp] theorem memRead1_word (a : Word) (s : State) : memRead1 (a.toNat : Int) s = .ok (s.byteAt a) := by
  simp [memRead1]

@[simp] theorem memWrite1_word (a : Word) (v : Byte) (s : State) :
    memWrite1 (a.toNat : Int) v s = .ok (s.setByte a v) := by
  simp [memWrite1]

/-- The byte one above an address, or the fault at the end of memory (R63). -/
theorem memRead1_succ (a : Word) (s : State) :
    memRead1 ((a.toNat : Int) + 1) s =
      if a.toNat = 0xFFFF then .error (.addressFault 0x10000) else .ok (s.byteAt (a + 1)) := by
  rw [memRead1, chk16_succ]
  by_cases e : a.toNat = 0xFFFF
  · rw [if_pos e, if_pos e]
  · rw [if_neg e, if_neg e]

/-- A 16-bit read at an address: little-endian, or the fault of the second byte (R52). -/
theorem memRead2_word (a : Word) (s : State) :
    memRead2 (a.toNat : Int) s =
      if a.toNat = 0xFFFF then .error (.addressFault 0x10000)
      else .ok (word (s.byteAt (a + 1)) (s.byteAt a)) := by
  rw [memRead2, memRead1_word, memRead1_succ]
  by_cases e : a.toNat = 0xFFFF
  · rw [if_pos e, if_pos e]
  · rw [if_neg e, if_neg e]

/-- A 16-bit write at an address: low byte below, or the fault of the second byte with nothing written (R52). -/
theorem memWrite2_word (a : Word) (w : Word) (s : State) :
    memWrite2 (a.toNat : Int) w s =
      if a.toNat = 0xFFFF then .error (.addressFault 0x10000)
      else .ok ((s.setByte a (lo8 w)).setByte (a + 1) (hi8 w)) := by
  rw [memWrite2, chk16_toNat, chk16_succ]
  by_cases e : a.toNat = 0xFFFF
  · rw [if_pos e, if_pos e]
  · rw [if_neg e, if_neg e]

/-! ### The stack (R190, R191) -/

/-- `push16`: the fault below address 0, or the word stored little-endian at the new SP. -/
theorem push16_eq (w : Word) (s : State) :
    push16 w s =
      if s.sp.toNat < 2 then .error (.addressFault ((s.sp.toNat : Int) - 2))
      else .ok (((s.setByte (s.sp - 2) (lo8 w)).setByte (s.sp - 1) (hi8 w)).setSp (s.sp - 2)) := by
  have hc := chk16_sub2 s.sp
  by_cases h : s.sp.toNat < 2
  · rw [if_pos h] at hc
    rw [if_pos h, push16, hc]
  · rw [if_neg h] at hc
    rw [if_neg h]
    simp only [push16, hc, memWrite1_word, toNat_sub2_succ h]

/-- `pop16`: the fault above address 0xFFFF, or the little-endian word at SP and SP moved up by two. -/
theorem pop16_eq (s : State) :
    pop16 s =
      if 0xFFFE ≤ s.sp.toNat then .error (.addressFault 0x10000)
      else .ok (word (s.byteAt (s.sp + 1)) (s.byteAt s.sp), s.setSp (s.sp + 2)) := by
  have := s.sp.isLt
  rw [pop16, memRead1_word, memRead1_succ]
  by_cases h1 : s.sp.toNat = 0xFFFF
  · rw [if_pos h1, if_pos (by omega)]
  · rw [if_neg h1, chk16_add2 h1]
    by_cases h2 : s.sp.toNat = 0xFFFE
    · rw [if_pos h2, if_pos (by omega)]
    · rw [if_neg h2, if_neg (by omega)]

/-- `callTo`: the push's fault, or PC pushed and the target in PC (R211). -/
theorem callTo_eq (target : Word) (s : State) :
    callTo target s =
      if s.sp.toNat < 2 then .error (.addressFault ((s.sp.toNat : Int) - 2))
      else .ok ((((s.setByte (s.sp - 2) (lo8 s.pc)).setByte (s.sp - 1) (hi8 s.pc)).setSp (s.sp - 2)).setPc target) := by
  rw [callTo, push16_eq]
  by_cases h : s.sp.toNat < 2 <;> simp [h]

/-- `returnFromStack`: the pop's fault, or the popped word in PC (R221). -/
theorem returnFromStack_eq (s : State) :
    returnFromStack s =
      if 0xFFFE ≤ s.sp.toNat then .error (.addressFault 0x10000)
      else .ok ((s.setSp (s.sp + 2)).setPc (word (s.byteAt (s.sp + 1)) (s.byteAt s.sp))) := by
  rw [returnFromStack, pop16_eq]
  by_cases h : 0xFFFE ≤ s.sp.toNat <;> simp [h]

/-- A delivered interrupt: the push's fault, or IE cleared, PC pushed and PC at 8*v (R256). -/
theorem interrupt_enabled {s : State} (v : BitVec 3) (h : s.ie = true) :
    interrupt v s =
      if s.sp.toNat < 2 then .fault (.addressFault ((s.sp.toNat : Int) - 2))
      else .next (((((s.setIe false).setByte (s.sp - 2) (lo8 s.pc)).setByte (s.sp - 1) (hi8 s.pc)).setSp
        (s.sp - 2)).setPc (restartAddr v)) := by
  rw [interrupt, if_pos h, callTo_eq]
  by_cases h2 : s.sp.toNat < 2 <;> simp [h2]

/-- An interrupt while IE = 0: no effect at all (R256, R257). -/
theorem interrupt_disabled {s : State} (v : BitVec 3) (h : s.ie = false) : interrupt v s = .next s := by
  simp [interrupt, h]

/-! ### The canonical form of memory through the shared operations -/

theorem push16_wf {w : Word} {s t : State} (h : push16 w s = .ok t) (hm : Memory.wf s.mem) :
    Memory.wf t.mem := by
  rw [push16_eq] at h
  split at h
  · cases h
  · cases h
    exact State.setByte_wf _ _ (State.setByte_wf _ _ hm)

theorem callTo_wf {x : Word} {s t : State} (h : callTo x s = .ok t) (hm : Memory.wf s.mem) :
    Memory.wf t.mem := by
  rw [callTo_eq] at h
  split at h
  · cases h
  · cases h
    exact State.setByte_wf _ _ (State.setByte_wf _ _ hm)

theorem memWrite2_wf {a w : Word} {s t : State} (h : memWrite2 (a.toNat : Int) w s = .ok t)
    (hm : Memory.wf s.mem) : Memory.wf t.mem := by
  rw [memWrite2_word] at h
  split at h
  · cases h
  · cases h
    exact State.setByte_wf _ _ (State.setByte_wf _ _ hm)

theorem pop16_mem {s t : State} {w : Word} (h : pop16 s = .ok (w, t)) : t.mem = s.mem := by
  rw [pop16_eq] at h
  split at h <;> cases h
  rfl

theorem returnFromStack_mem {s t : State} (h : returnFromStack s = .ok t) : t.mem = s.mem := by
  rw [returnFromStack_eq] at h
  split at h <;> cases h
  rfl

end Sys2Proof.Machine
end

