-- ==== Sys2Proof/Laws/Control.lean ====
section
/-! SUPPORT. What the three conditional operations and a completed instruction answer: each is inverted once here. -/

namespace Sys2Proof.Machine

/-- A completed instruction is its state with the report of the step (R36). -/
theorem complete_next {i : Instr} {taken : Bool} {s t : State} (h : complete i taken s = .next t) :
    t = s.setReport (some { cycles := tstates i taken, halt := false }) := by
  cases h
  rfl

/-- An instruction whose operation may fault completes only where the operation did. -/
theorem completeOrFault_next {i : Instr} {taken : Bool} {x : Except Fault State} {t : State}
    (h : completeOrFault i taken x = .next t) :
    ∃ s, x = .ok s ∧ t = s.setReport (some { cycles := tstates i taken, halt := false }) := by
  cases x with
  | error f => cases h
  | ok s => exact ⟨s, rfl, complete_next h⟩

/-- A conditional jump where its condition holds, and where it does not (R203 to R210). -/
theorem jumpIf_eq (i : Instr) (ccc : BitVec 3) (w : Word) (s : State) :
    (condHolds ccc s.flags = true → jumpIf i ccc w s = complete i true (s.setPc w)) ∧
    (condHolds ccc s.flags = false → jumpIf i ccc w s = complete i false s) :=
  ⟨fun h => by rw [jumpIf, if_pos h], fun h => by rw [jumpIf, if_neg (by simp [h])]⟩

/-- A conditional call where its condition holds, and where it does not (R213 to R220). -/
theorem callIf_eq (i : Instr) (ccc : BitVec 3) (w : Word) (s : State) :
    (condHolds ccc s.flags = true → callIf i ccc w s = completeOrFault i true (callTo w s)) ∧
    (condHolds ccc s.flags = false → callIf i ccc w s = complete i false s) :=
  ⟨fun h => by rw [callIf, if_pos h], fun h => by rw [callIf, if_neg (by simp [h])]⟩

/-- A conditional return where its condition holds, and where it does not (R223 to R230). -/
theorem returnIf_eq (i : Instr) (ccc : BitVec 3) (s : State) :
    (condHolds ccc s.flags = true → returnIf i ccc s = completeOrFault i true (returnFromStack s)) ∧
    (condHolds ccc s.flags = false → returnIf i ccc s = complete i false s) :=
  ⟨fun h => by rw [returnIf, if_pos h], fun h => by rw [returnIf, if_neg (by simp [h])]⟩

end Sys2Proof.Machine
end

