-- ==== Sys2Proof/Laws/Decode.lean ====
section
/-! SUPPORT. The first byte decides the length, and bytes a format does not have are not looked at (R70). -/

namespace Sys2Proof

/-- Every byte is one of 256 literals: for a case split over the opcode map. -/
theorem Byte.exists_lit (op : Byte) : ∃ n, n < 256 ∧ op = BitVec.ofNat 8 n :=
  ⟨op.toNat, op.isLt, by simp⟩

/-- The operand bytes have no part in the length (R70). -/
theorem size_instrOf (op b1 b2 : Byte) : (instrOf op b1 b2).size = opLength op := by
  obtain ⟨n, hn, rfl⟩ := Byte.exists_lit op
  interval_cases n <;> rfl

/-- A one-byte instruction looks at no operand byte. -/
theorem instrOf_of_length_one {op : Byte} (b1 b2 : Byte) (h : opLength op = 1) : instrOf op b1 b2 = instrOf op 0 0 := by
  obtain ⟨n, hn, rfl⟩ := Byte.exists_lit op
  interval_cases n <;> first | rfl | exact absurd h (by decide)

/-- A two-byte instruction looks at one operand byte. -/
theorem instrOf_of_length_two {op : Byte} (b1 b2 : Byte) (h : opLength op = 2) : instrOf op b1 b2 = instrOf op b1 0 := by
  obtain ⟨n, hn, rfl⟩ := Byte.exists_lit op
  interval_cases n <;> first | rfl | exact absurd h (by decide)

/-- Every instruction has one, two or three bytes (R70). -/
theorem Instr.size_le (i : Instr) : 1 ≤ i.size ∧ i.size ≤ 3 := by
  cases i <;> exact ⟨Nat.le_of_ble_eq_true rfl, Nat.le_of_ble_eq_true rfl⟩

theorem opLength_cases (op : Byte) : opLength op = 1 ∨ opLength op = 2 ∨ opLength op = 3 := by
  have h : 1 ≤ opLength op ∧ opLength op ≤ 3 := Instr.size_le (instrOf op 0 0)
  omega

end Sys2Proof
end

