-- ==== Sys2Proof/Laws/Fetch.lean ====
section
/-! SUPPORT. What a fetch answers (R78), that fetching keeps everything but PC, and that placing bytes keeps the
canonical form. -/

namespace Sys2Proof.Machine

/-- One byte fetched: the fault at the end of memory, or the byte and PC one further. -/
theorem fetchByte_eq (s : State) :
    fetchByte s =
      if s.pc.toNat = 0xFFFF then .error (.addressFault 0x10000) else .ok (s.byteAt s.pc, s.setPc (s.pc + 1)) := by
  rw [fetchByte, memRead1_word, chk16_succ]
  by_cases e : s.pc.toNat = 0xFFFF
  · rw [if_pos e, if_pos e]
  · rw [if_neg e, if_neg e]

theorem toNat_succ {a : Word} (h : a.toNat ≠ 0xFFFF) : (a + 1).toNat = a.toNat + 1 := by
  have := a.isLt
  rw [BitVec.toNat_add]
  show (a.toNat + 1) % 65536 = _
  omega

/-- A whole fetch: the fault where a byte of the instruction, or the PC after it, lies beyond the end of memory;
otherwise the instruction and PC past it (R78, R63). -/
theorem fetchInstr_eq (s : State) :
    fetchInstr s =
      if 0xFFFF < s.pc.toNat + opLength (s.byteAt s.pc) then .error (.addressFault 0x10000)
      else .ok (instrOf (s.byteAt s.pc) (s.byteAt (s.pc + 1)) (s.byteAt (s.pc + 2)),
        s.setPc (s.pc + BitVec.ofNat 16 (opLength (s.byteAt s.pc)))) := by
  have hp := s.pc.isLt
  rw [fetchInstr, fetchByte_eq]
  by_cases h0 : s.pc.toNat = 0xFFFF
  · have := opLength_cases (s.byteAt s.pc)
    rw [if_pos h0, if_pos (by omega)]
  rw [if_neg h0]
  have e1 := toNat_succ h0
  have a2 : s.pc + 1 + 1 = s.pc + 2 := by rw [BitVec.add_assoc]; rfl
  have a3 : s.pc + 2 + 1 = s.pc + 3 := by rw [BitVec.add_assoc]; rfl
  simp only [fetchOperands]
  rcases opLength_cases (s.byteAt s.pc) with hl | hl | hl
  · simp only [hl, show (1 : Nat) < 2 from by omega, if_true]
    rw [if_neg (by omega), instrOf_of_length_one (s.byteAt (s.pc + 1)) (s.byteAt (s.pc + 2)) hl]
    rfl
  · simp only [hl, show ¬ (2 : Nat) < 2 from by omega, if_false, show (2 : Nat) < 3 from by omega, if_true, fetchByte_eq,
      State.setPc_pc, e1]
    by_cases h1 : s.pc.toNat + 1 = 65535
    · rw [if_pos h1, if_pos (by omega)]
    · rw [if_neg h1, if_neg (by omega), instrOf_of_length_two _ _ hl, a2]
      rfl
  · simp only [hl, show ¬ (3 : Nat) < 2 from by omega, if_false, show ¬ (3 : Nat) < 3 from by omega, fetchByte_eq,
      State.setPc_pc, e1]
    by_cases h1 : s.pc.toNat + 1 = 65535
    · rw [if_pos h1, if_pos (by omega)]
    · have e2 : (s.pc + 2).toNat = s.pc.toNat + 2 := by rw [← a2, toNat_succ (by rw [e1]; exact h1), e1]
      rw [if_neg h1, a2]
      simp only [State.setPc_pc, e2]
      by_cases h2 : s.pc.toNat + 2 = 65535
      · rw [if_pos h2, if_pos (by omega)]
      · rw [if_neg h2, if_neg (by omega), a3]
        rfl

/-- Loading bytes keeps the canonical form. -/
theorem placeBytes_wf {m : Memory} (a : Nat) (bytes : List Byte) (h : Memory.wf m) :
    Memory.wf (placeBytes a bytes m) := by
  induction bytes generalizing a m with
  | nil => exact h
  | cons b rest ih =>
    refine ih (a + 1) ?_
    split
    · next ha => exact memSet_wf b ha h
    · exact h

/-- Taking the host's next action keeps everything but the list and the report. -/
theorem nextAction_eq (s : State) :
    nextAction s = (s.hostActions.headD .step, (s.setHostActions s.hostActions.tail).setReport none) := by
  obtain ⟨regs, sp, pc, flags, ie, mem, report, events, answers, actions⟩ := s
  cases actions <;> rfl

end Sys2Proof.Machine
end

