-- ==== Sys2Proof/Laws/Operands.lean ====
section
/-! SUPPORT. Reading back what was written to a register, a pair or the memory operand, and the PSW view (R20 to R23,
R28). -/

namespace Sys2Proof.Machine

/-- A pair read after it was written (R22). -/
theorem State.pair_setPair (s : State) (pp : RegPair) (w : Word) : (s.setPair pp w).pair pp = w := by
  cases pp <;> first | exact word_hi8_lo8 w | rfl

/-- The memory operand: the byte at HL is written, every other byte is left alone (R21). -/
theorem State.byteAt_setMemOperand (s : State) (a : Word) (v : Byte) :
    (s.setMemOperand v).byteAt a = if s.hl = a then v else s.byteAt a :=
  State.byteAt_setByte s s.hl a v

/-- The flag byte as a number: its bits at the weights R28 gives them. -/
theorem packF_toNat (f : Flags) :
    (packF f).toNat = 128 * bit f.s + 64 * bit f.z + 16 * bit f.ac + 4 * bit f.p + 2 + bit f.cy := by
  obtain ⟨z, s, p, cy, ac⟩ := f
  revert z s p cy ac
  decide

end Sys2Proof.Machine
end

