-- ==== Sys2Proof/Laws/Flags.lean ====
section
/-! SUPPORT. The flag computations in plain arithmetic: one lemma per computation that says what it answers. -/

namespace Sys2Proof.Machine

theorem bit_le_one (b : Bool) : bit b ≤ 1 := by cases b <;> decide

@[simp] theorem zsp_cy (r : Byte) (f : Flags) : (zsp r f).cy = f.cy := rfl
@[simp] theorem zsp_ac (r : Byte) (f : Flags) : (zsp r f).ac = f.ac := rfl

/-- Z is 1 exactly on the result 0 (R27). -/
theorem zsp_z (r : Byte) (f : Flags) : (zsp r f).z = true ↔ r.toNat = 0 := by
  simp only [zsp, beq_iff_eq, ← BitVec.toNat_inj]
  rfl

/-- S is bit 7 of the result (R27). -/
theorem zsp_s (r : Byte) (f : Flags) : (zsp r f).s = true ↔ 128 ≤ r.toNat := by
  have h := BitVec.msb_eq_decide r
  rw [show (zsp r f).s = r.msb from rfl, h]
  simp

/-- P is 1 exactly on an even number of 1 bits (R27). -/
theorem zsp_p (r : Byte) (f : Flags) : (zsp r f).p = true ↔ popcount r % 2 = 0 := by
  simp [zsp]

/-! ### The addition and the subtraction path (R120, R121) -/

theorem addResult_toNat (a v : Byte) (cin : Bool) : (addResult a v cin).toNat = (a.toNat + v.toNat + bit cin) % 256 := by
  simp [addResult]

theorem addFlags_cy (a v : Byte) (cin : Bool) (f : Flags) :
    (addFlags a v cin f).cy = true ↔ 255 < a.toNat + v.toNat + bit cin := by
  simp [addFlags]

theorem addFlags_ac (a v : Byte) (cin : Bool) (f : Flags) :
    (addFlags a v cin f).ac = true ↔ 15 < a.toNat % 16 + v.toNat % 16 + bit cin := by
  simp [addFlags]

theorem subResult_toNat (a v : Byte) (b : Bool) : (subResult a v b).toNat = (a.toNat + 512 - v.toNat - bit b) % 256 := by
  have := v.isLt
  have := bit_le_one b
  rw [subResult, BitVec.toNat_ofInt]
  omega

theorem subFlags_cy (a v : Byte) (b : Bool) (f : Flags) :
    (subFlags a v b f).cy = true ↔ a.toNat < v.toNat + bit b := by
  simp [subFlags]

theorem subFlags_ac (a v : Byte) (b : Bool) (f : Flags) :
    (subFlags a v b f).ac = true ↔ a.toNat % 16 < v.toNat % 16 + bit b := by
  simp [subFlags]

/-! ### Condition codes (R200) -/

/-- What each of the eight codes tests. -/
theorem condHolds_eq (f : Flags) :
    condHolds 0 f = (f.z == false) ∧ condHolds 1 f = (f.z == true) ∧ condHolds 2 f = (f.cy == false) ∧
      condHolds 3 f = (f.cy == true) ∧ condHolds 4 f = (f.p == false) ∧ condHolds 5 f = (f.p == true) ∧
      condHolds 6 f = (f.s == false) ∧ condHolds 7 f = (f.s == true) :=
  ⟨rfl, rfl, rfl, rfl, rfl, rfl, rfl, rfl⟩

end Sys2Proof.Machine
end

