-- ==== Sys2Proof/Laws/PerInstr.lean ====
section
/-! SUPPORT. One lemma per constructor of `Instr`: its encoding has the number of bytes of its format (R70). -/

namespace Sys2Proof.Laws.Length

/-- The family: an instruction's encoding is as long as its format, B1, B2 or B3, says (R70). -/
def Statement (i : Instr) : Prop := (encode i).length = i.size

theorem nop : Statement .nop := rfl
theorem nopAlias (x : BitVec 3) : Statement (.nopAlias x) := rfl
theorem lxi (pp : RegPair) (w : Word) : Statement (.lxi pp w) := rfl
theorem stax (p : IndexPair) : Statement (.stax p) := rfl
theorem shld (w : Word) : Statement (.shld w) := rfl
theorem sta (w : Word) : Statement (.sta w) := rfl
theorem inx (pp : RegPair) : Statement (.inx pp) := rfl
theorem inrR (r : Reg8) : Statement (.inrR r) := rfl
theorem inrM : Statement .inrM := rfl
theorem dcrR (r : Reg8) : Statement (.dcrR r) := rfl
theorem dcrM : Statement .dcrM := rfl
theorem mviR (r : Reg8) (n : Byte) : Statement (.mviR r n) := rfl
theorem mviM (n : Byte) : Statement (.mviM n) := rfl
theorem rlc : Statement .rlc := rfl
theorem rrc : Statement .rrc := rfl
theorem ral : Statement .ral := rfl
theorem rar : Statement .rar := rfl
theorem daa : Statement .daa := rfl
theorem cma : Statement .cma := rfl
theorem stc : Statement .stc := rfl
theorem cmc : Statement .cmc := rfl
theorem dad (pp : RegPair) : Statement (.dad pp) := rfl
theorem ldax (p : IndexPair) : Statement (.ldax p) := rfl
theorem lhld (w : Word) : Statement (.lhld w) := rfl
theorem lda (w : Word) : Statement (.lda w) := rfl
theorem dcx (pp : RegPair) : Statement (.dcx pp) := rfl
theorem movRR (dst src : Reg8) : Statement (.movRR dst src) := rfl
theorem movRM (dst : Reg8) : Statement (.movRM dst) := rfl
theorem movMR (src : Reg8) : Statement (.movMR src) := rfl
theorem hlt : Statement .hlt := rfl
theorem addR (r : Reg8) : Statement (.addR r) := rfl
theorem addM : Statement .addM := rfl
theorem adcR (r : Reg8) : Statement (.adcR r) := rfl
theorem adcM : Statement .adcM := rfl
theorem subR (r : Reg8) : Statement (.subR r) := rfl
theorem subM : Statement .subM := rfl
theorem sbbR (r : Reg8) : Statement (.sbbR r) := rfl
theorem sbbM : Statement .sbbM := rfl
theorem anaR (r : Reg8) : Statement (.anaR r) := rfl
theorem anaM : Statement .anaM := rfl
theorem xraR (r : Reg8) : Statement (.xraR r) := rfl
theorem xraM : Statement .xraM := rfl
theorem oraR (r : Reg8) : Statement (.oraR r) := rfl
theorem oraM : Statement .oraM := rfl
theorem cmpR (r : Reg8) : Statement (.cmpR r) := rfl
theorem cmpM : Statement .cmpM := rfl
theorem rnz : Statement .rnz := rfl
theorem rz : Statement .rz := rfl
theorem rnc : Statement .rnc := rfl
theorem rc : Statement .rc := rfl
theorem rpo : Statement .rpo := rfl
theorem rpe : Statement .rpe := rfl
theorem rp : Statement .rp := rfl
theorem rm : Statement .rm := rfl
theorem popB : Statement .popB := rfl
theorem popD : Statement .popD := rfl
theorem popH : Statement .popH := rfl
theorem popPsw : Statement .popPsw := rfl
theorem jnz (w : Word) : Statement (.jnz w) := rfl
theorem jz (w : Word) : Statement (.jz w) := rfl
theorem jnc (w : Word) : Statement (.jnc w) := rfl
theorem jc (w : Word) : Statement (.jc w) := rfl
theorem jpo (w : Word) : Statement (.jpo w) := rfl
theorem jpe (w : Word) : Statement (.jpe w) := rfl
theorem jp (w : Word) : Statement (.jp w) := rfl
theorem jm (w : Word) : Statement (.jm w) := rfl
theorem jmp (w : Word) : Statement (.jmp w) := rfl
theorem jmpAlias (w : Word) : Statement (.jmpAlias w) := rfl
theorem out (n : Byte) : Statement (.out n) := rfl
theorem inp (n : Byte) : Statement (.inp n) := rfl
theorem xthl : Statement .xthl := rfl
theorem xchg : Statement .xchg := rfl
theorem di : Statement .di := rfl
theorem ei : Statement .ei := rfl
theorem cnz (w : Word) : Statement (.cnz w) := rfl
theorem cz (w : Word) : Statement (.cz w) := rfl
theorem cnc (w : Word) : Statement (.cnc w) := rfl
theorem cc (w : Word) : Statement (.cc w) := rfl
theorem cpo (w : Word) : Statement (.cpo w) := rfl
theorem cpe (w : Word) : Statement (.cpe w) := rfl
theorem cp (w : Word) : Statement (.cp w) := rfl
theorem cm (w : Word) : Statement (.cm w) := rfl
theorem pushB : Statement .pushB := rfl
theorem pushD : Statement .pushD := rfl
theorem pushH : Statement .pushH := rfl
theorem pushPsw : Statement .pushPsw := rfl
theorem adi (n : Byte) : Statement (.adi n) := rfl
theorem aci (n : Byte) : Statement (.aci n) := rfl
theorem sui (n : Byte) : Statement (.sui n) := rfl
theorem sbi (n : Byte) : Statement (.sbi n) := rfl
theorem ani (n : Byte) : Statement (.ani n) := rfl
theorem xri (n : Byte) : Statement (.xri n) := rfl
theorem ori (n : Byte) : Statement (.ori n) := rfl
theorem cpi (n : Byte) : Statement (.cpi n) := rfl
theorem rst (n : BitVec 3) : Statement (.rst n) := rfl
theorem ret : Statement .ret := rfl
theorem retAlias : Statement .retAlias := rfl
theorem pchl : Statement .pchl := rfl
theorem sphl : Statement .sphl := rfl
theorem call (w : Word) : Statement (.call w) := rfl
theorem callAlias (x : BitVec 2) (w : Word) : Statement (.callAlias x w) := rfl

end Sys2Proof.Laws.Length
end

