-- ==== Sys2Proof/Laws/Reset.lean ====
section
/-! SUPPORT. The reset procedure (R280): what the filled memory reads as, that filling and loading keep the canonical
form, and that `State.reset` is the procedure with every open register 0 and no image. -/

namespace Sys2Proof.Machine

theorem memGet_map_fill (l : List Nat) (fill : Byte) (a : Nat) :
    memGet (l.map (fun a => (a, fill))) a = if a ∈ l then fill else Config.unlistedByte := by
  induction l with
  | nil => rfl
  | cons x rest ih =>
    simp only [List.map_cons, memGet, ih, List.mem_cons]
    by_cases h : x = a
    · simp [h]
    · simp [h, Ne.symm h]

/-- Every byte of a filled memory is the fill byte. -/
theorem memGet_filledMemory (fill : Byte) {a : Nat} (h : a < Config.memSize) : memGet (filledMemory fill) a = fill := by
  unfold filledMemory
  split
  · next e => exact e.symm
  · rw [memGet_map_fill, if_pos (List.mem_range.2 h)]

theorem filledMemory_wf (fill : Byte) : Memory.wf (filledMemory fill) := by
  unfold filledMemory
  split
  · exact ⟨List.Pairwise.nil, fun _ h => nomatch h⟩
  · next e =>
    refine ⟨List.pairwise_map.2 List.pairwise_lt_range, fun x hx => ?_⟩
    obtain ⟨a, ha, rfl⟩ := List.mem_map.1 hx
    exact ⟨List.mem_range.1 ha, e⟩

theorem imageFits_iff (offset : Nat) (bytes : List Byte) :
    imageFits offset bytes = true ↔ bytes = [] ∨ offset + bytes.length ≤ Config.memSize := by
  simp [imageFits]

/-- Loading images keeps the canonical form (R280). -/
theorem loadImages_wf {image : List (Nat × List Byte)} {m t : Memory} (h : loadImages image m = some t)
    (hm : Memory.wf m) : Memory.wf t := by
  induction image generalizing m with
  | nil => cases h; exact hm
  | cons x rest ih =>
    obtain ⟨offset, bytes⟩ := x
    simp only [loadImages] at h
    split at h
    · exact ih h (placeBytes_wf offset bytes hm)
    · cases h

/-- Reset memory is in canonical form. -/
theorem reset_mem_wf : Memory.wf State.reset.mem := by decide

/-- `State.reset` is the reset procedure with no image and every open register value 0. -/
theorem resetWith_default :
    State.resetWith Config.unlistedByte [] ⟨State.reset.regs, 0, State.reset.flags⟩ Config.resetPc = some State.reset :=
  rfl

/-- With no image every byte of memory is the fill byte, whatever it is (R4). -/
theorem resetWith_byteAt (fill : Byte) (g : ResetRegs) (pc a : Word) :
    (State.resetWith fill [] g pc).map (fun s => s.byteAt a) = some fill :=
  congrArg some (memGet_filledMemory fill a.isLt)

end Sys2Proof.Machine
end

