-- ==== Sys2Proof/Tests/Slice0.lean ====
section
/-! SUPPORT. Tests: ill-formed terms refused, words written out from the encodings of spec/opcode_table.json, one-step
results taken from the vectors of 95_test_vectors.md (V and E numbers below), and for every obligation with
hypotheses a witness that they can be met, at the boundary values of each clause. -/

namespace Sys2Proof.Tests

open Sys2Proof Sys2Proof.Machine

/-! ### Well-formedness: each check refuses an ill-formed term (R84, R212, R246) -/

theorem test_wf_refuses_nop_alias_zero : (Instr.nopAlias 0).wf = false := by decide
theorem test_wf_refuses_call_alias_zero : (Instr.callAlias 0 0x1234).wf = false := by decide
theorem test_wf_accepts_aliases : (Instr.nopAlias 7).wf = true ∧ (Instr.callAlias 3 0xFFFF).wf = true := by decide

/-! ### Decoding: the table's bit patterns with their fields filled in; an operand byte follows in bits 15..8, an
operand word 1234h has its low byte there and its high byte in bits 23..16 -/

theorem test_decode_no_operation :
    decodeTableWord 8 0b00000000 = some (.nop) ∧
    decodeTableWord 8 0b00101000 = some (.nopAlias 5) ∧
    decodeTableWord 8 0b00001000 = some (.nopAlias 1) := by decide

theorem test_decode_data_transfer :
    decodeTableWord 24 0b00010010_00110100_00010001 = some (.lxi .de 0x1234) ∧
    decodeTableWord 24 0b00010010_00110100_00110001 = some (.lxi .sp 0x1234) ∧
    decodeTableWord 8 0b00000010 = some (.stax .bc) ∧
    decodeTableWord 8 0b00010010 = some (.stax .de) ∧
    decodeTableWord 8 0b00001010 = some (.ldax .bc) ∧
    decodeTableWord 8 0b00011010 = some (.ldax .de) ∧
    decodeTableWord 24 0b00010010_00110100_00100010 = some (.shld 0x1234) ∧
    decodeTableWord 24 0b00010010_00110100_00101010 = some (.lhld 0x1234) ∧
    decodeTableWord 24 0b00010010_00110100_00110010 = some (.sta 0x1234) ∧
    decodeTableWord 24 0b00010010_00110100_00111010 = some (.lda 0x1234) ∧
    decodeTableWord 16 0b10100101_00101110 = some (.mviR .l 0xA5) ∧
    decodeTableWord 16 0b10100101_00111110 = some (.mviR .a 0xA5) ∧
    decodeTableWord 16 0b10100101_00110110 = some (.mviM 0xA5) ∧
    decodeTableWord 8 0b01011101 = some (.movRR .e .l) ∧
    decodeTableWord 8 0b01101011 = some (.movRR .l .e) ∧
    decodeTableWord 8 0b01010110 = some (.movRM .d) ∧
    decodeTableWord 8 0b01110111 = some (.movMR .a) ∧
    decodeTableWord 8 0b11101011 = some (.xchg) := by decide

theorem test_decode_increment :
    decodeTableWord 8 0b00001100 = some (.inrR .c) ∧
    decodeTableWord 8 0b00111100 = some (.inrR .a) ∧
    decodeTableWord 8 0b00110100 = some (.inrM) ∧
    decodeTableWord 8 0b00100101 = some (.dcrR .h) ∧
    decodeTableWord 8 0b00110101 = some (.dcrM) := by decide

theorem test_decode_rotates_and_flags :
    decodeTableWord 8 0b00000111 = some (.rlc) ∧
    decodeTableWord 8 0b00001111 = some (.rrc) ∧
    decodeTableWord 8 0b00010111 = some (.ral) ∧
    decodeTableWord 8 0b00011111 = some (.rar) ∧
    decodeTableWord 8 0b00100111 = some (.daa) ∧
    decodeTableWord 8 0b00101111 = some (.cma) ∧
    decodeTableWord 8 0b00110111 = some (.stc) ∧
    decodeTableWord 8 0b00111111 = some (.cmc) := by decide

theorem test_decode_pairs :
    decodeTableWord 8 0b00100011 = some (.inx .hl) ∧
    decodeTableWord 8 0b00110011 = some (.inx .sp) ∧
    decodeTableWord 8 0b00001011 = some (.dcx .bc) ∧
    decodeTableWord 8 0b00011011 = some (.dcx .de) ∧
    decodeTableWord 8 0b00011001 = some (.dad .de) ∧
    decodeTableWord 8 0b00111001 = some (.dad .sp) := by decide

theorem test_decode_alu_register :
    decodeTableWord 8 0b10000100 = some (.addR .h) ∧
    decodeTableWord 8 0b10001101 = some (.adcR .l) ∧
    decodeTableWord 8 0b10010000 = some (.subR .b) ∧
    decodeTableWord 8 0b10011001 = some (.sbbR .c) ∧
    decodeTableWord 8 0b10100010 = some (.anaR .d) ∧
    decodeTableWord 8 0b10101011 = some (.xraR .e) ∧
    decodeTableWord 8 0b10110111 = some (.oraR .a) ∧
    decodeTableWord 8 0b10111000 = some (.cmpR .b) := by decide

theorem test_decode_alu_memory :
    decodeTableWord 8 0b10000110 = some (.addM) ∧
    decodeTableWord 8 0b10001110 = some (.adcM) ∧
    decodeTableWord 8 0b10010110 = some (.subM) ∧
    decodeTableWord 8 0b10011110 = some (.sbbM) ∧
    decodeTableWord 8 0b10100110 = some (.anaM) ∧
    decodeTableWord 8 0b10101110 = some (.xraM) ∧
    decodeTableWord 8 0b10110110 = some (.oraM) ∧
    decodeTableWord 8 0b10111110 = some (.cmpM) := by decide

theorem test_decode_alu_immediate :
    decodeTableWord 16 0b10100101_11000110 = some (.adi 0xA5) ∧
    decodeTableWord 16 0b10100101_11001110 = some (.aci 0xA5) ∧
    decodeTableWord 16 0b10100101_11010110 = some (.sui 0xA5) ∧
    decodeTableWord 16 0b10100101_11011110 = some (.sbi 0xA5) ∧
    decodeTableWord 16 0b10100101_11100110 = some (.ani 0xA5) ∧
    decodeTableWord 16 0b10100101_11101110 = some (.xri 0xA5) ∧
    decodeTableWord 16 0b10100101_11110110 = some (.ori 0xA5) ∧
    decodeTableWord 16 0b10100101_11111110 = some (.cpi 0xA5) := by decide

theorem test_decode_jumps :
    decodeTableWord 24 0b00010010_00110100_11000011 = some (.jmp 0x1234) ∧
    decodeTableWord 24 0b00010010_00110100_11001011 = some (.jmpAlias 0x1234) ∧
    decodeTableWord 24 0b00010010_00110100_11000010 = some (.jnz 0x1234) ∧
    decodeTableWord 24 0b00010010_00110100_11001010 = some (.jz 0x1234) ∧
    decodeTableWord 24 0b00010010_00110100_11010010 = some (.jnc 0x1234) ∧
    decodeTableWord 24 0b00010010_00110100_11011010 = some (.jc 0x1234) ∧
    decodeTableWord 24 0b00010010_00110100_11100010 = some (.jpo 0x1234) ∧
    decodeTableWord 24 0b00010010_00110100_11101010 = some (.jpe 0x1234) ∧
    decodeTableWord 24 0b00010010_00110100_11110010 = some (.jp 0x1234) ∧
    decodeTableWord 24 0b00010010_00110100_11111010 = some (.jm 0x1234) ∧
    decodeTableWord 8 0b11101001 = some (.pchl) := by decide

theorem test_decode_calls :
    decodeTableWord 24 0b00010010_00110100_11001101 = some (.call 0x1234) ∧
    decodeTableWord 24 0b00010010_00110100_11011101 = some (.callAlias 1 0x1234) ∧
    decodeTableWord 24 0b00010010_00110100_11101101 = some (.callAlias 2 0x1234) ∧
    decodeTableWord 24 0b00010010_00110100_11111101 = some (.callAlias 3 0x1234) ∧
    decodeTableWord 24 0b00010010_00110100_11000100 = some (.cnz 0x1234) ∧
    decodeTableWord 24 0b00010010_00110100_11001100 = some (.cz 0x1234) ∧
    decodeTableWord 24 0b00010010_00110100_11010100 = some (.cnc 0x1234) ∧
    decodeTableWord 24 0b00010010_00110100_11011100 = some (.cc 0x1234) ∧
    decodeTableWord 24 0b00010010_00110100_11100100 = some (.cpo 0x1234) ∧
    decodeTableWord 24 0b00010010_00110100_11101100 = some (.cpe 0x1234) ∧
    decodeTableWord 24 0b00010010_00110100_11110100 = some (.cp 0x1234) ∧
    decodeTableWord 24 0b00010010_00110100_11111100 = some (.cm 0x1234) ∧
    decodeTableWord 8 0b11101111 = some (.rst 5) ∧
    decodeTableWord 8 0b11000111 = some (.rst 0) := by decide

theorem test_decode_returns :
    decodeTableWord 8 0b11001001 = some (.ret) ∧
    decodeTableWord 8 0b11011001 = some (.retAlias) ∧
    decodeTableWord 8 0b11000000 = some (.rnz) ∧
    decodeTableWord 8 0b11001000 = some (.rz) ∧
    decodeTableWord 8 0b11010000 = some (.rnc) ∧
    decodeTableWord 8 0b11011000 = some (.rc) ∧
    decodeTableWord 8 0b11100000 = some (.rpo) ∧
    decodeTableWord 8 0b11101000 = some (.rpe) ∧
    decodeTableWord 8 0b11110000 = some (.rp) ∧
    decodeTableWord 8 0b11111000 = some (.rm) := by decide

theorem test_decode_stack :
    decodeTableWord 8 0b11000101 = some (.pushB) ∧
    decodeTableWord 8 0b11010101 = some (.pushD) ∧
    decodeTableWord 8 0b11100101 = some (.pushH) ∧
    decodeTableWord 8 0b11110101 = some (.pushPsw) ∧
    decodeTableWord 8 0b11000001 = some (.popB) ∧
    decodeTableWord 8 0b11010001 = some (.popD) ∧
    decodeTableWord 8 0b11100001 = some (.popH) ∧
    decodeTableWord 8 0b11110001 = some (.popPsw) ∧
    decodeTableWord 8 0b11100011 = some (.xthl) ∧
    decodeTableWord 8 0b11111001 = some (.sphl) := by decide

theorem test_decode_machine :
    decodeTableWord 16 0b10100101_11010011 = some (.out 0xA5) ∧
    decodeTableWord 16 0b10100101_11011011 = some (.inp 0xA5) ∧
    decodeTableWord 8 0b11111011 = some (.ei) ∧
    decodeTableWord 8 0b11110011 = some (.di) ∧
    decodeTableWord 8 0b01110110 = some (.hlt) := by decide

/-- R70: what follows an instruction is handed back; one operand byte too few is refused by name. -/
theorem test_decode_lengths :
    decode [0xC3, 0x34, 0x12, 0x99] = .ok (.jmp 0x1234, [0x99]) ∧ decode [0xC3, 0x34] = .error (.missingOperand 0xC3) ∧
    decode [] = .error .noOpcode := ⟨rfl, rfl, rfl⟩

set_option maxRecDepth 20000 in
/-- V10: 30 opcodes of length 3, 18 of length 2, 208 of length 1. -/
theorem test_length_counts :
    ((List.range 256).countP fun n => opLength (BitVec.ofNat 8 n) == 3) = 30 ∧
    ((List.range 256).countP fun n => opLength (BitVec.ofNat 8 n) == 2) = 18 ∧
    ((List.range 256).countP fun n => opLength (BitVec.ofNat 8 n) == 1) = 208 := by decide

/-! ### One step on a small state -/

/-- A state with the bytes at 0100h, where PC is, and SP = 2000h. -/
def start (bytes : List Byte) : State :=
  { State.reset with pc := 0x0100, sp := 0x2000, mem := placeBytes 0x0100 bytes [] }

/-- The state with one more byte of memory. -/
def poke (a : Word) (v : Byte) (s : State) : State := s.setByte a v

/-- The state with HL = 2000h and the operand there. -/
def withM (v : Byte) (s : State) : State := poke 0x2000 v (s.setPair .hl 0x2000)

/-- The next state of an outcome has the property. -/
def nextHas (r : Result) (p : State → Bool) : Bool :=
  match r with
  | .next t => p t
  | _ => false

/-- The fault of an outcome. -/
def faultOf (r : Result) : Option Fault :=
  match r with
  | .fault f => some f
  | _ => none

/-- A and the flags Z, S, P, CY, AC. -/
def aluIs (t : State) (a : Byte) (z s p cy ac : Bool) : Bool :=
  t.regs.a == a && t.flags == { z := z, s := s, p := p, cy := cy, ac := ac }

/-- A and the carry at the start of a step. -/
def withA (a : Byte) (cy : Bool) (s : State) : State := (s.setReg .a a).setCarry cy

/-- The fetched word runs as the first instruction after reset. -/
theorem test_with_fetch_word :
    nextHas (step (State.reset.withFetchWord 16 0x053E)) (fun t => t.regs.a == 0x05 && t.pc == 2) = true ∧
    nextHas (step (State.reset.withFetchWord 24 0x1234C3)) (fun t => t.pc == 0x1234) = true ∧
    nextHas (step (State.reset.withFetchWord 8 0x76)) (fun t => t.halts && t.pc == 1) = true := by decide

/-- V1.1, V1.2 -/
theorem test_mov_r_r :
    nextHas (step ((poke 0 0 (start [0x65])).setPair .hl 0x2000)) (fun t => t.regs.h == 0 && t.regs.l == 0) = true ∧
    nextHas (step (withA 0x5A false (start [0x7F]))) (fun t => t.regs.a == 0x5A && t.pc == 0x0101) = true := by decide

/-- V1.3, V1.4: the address is taken before the write -/
theorem test_mov_r_m :
    nextHas (step (withM 0x5A (start [0x46]))) (fun t => t.regs.b == 0x5A) = true ∧
    nextHas (step (withM 0x5A (start [0x6E]))) (fun t => t.regs.l == 0x5A && t.regs.h == 0x20) = true := by decide

/-- V1.5, V1.6 -/
theorem test_mov_m_r :
    nextHas (step ((withM 0 (start [0x73])).setReg .e 0x77)) (fun t => t.byteAt 0x2000 == 0x77) = true ∧
    nextHas (step (withM 0 (start [0x74]))) (fun t => t.byteAt 0x2000 == 0x20) = true := by decide

/-- V1.8, V1.9 -/
theorem test_mvi :
    nextHas (step (start [0x3E, 0x05])) (fun t => t.regs.a == 5 && t.pc == 0x0102) = true ∧
    nextHas (step (withM 0 (start [0x36, 0x99]))) (fun t => t.byteAt 0x2000 == 0x99 && t.pc == 0x0102) = true := by decide

/-- V1.10, V1.11 -/
theorem test_lxi :
    nextHas (step (start [0x01, 0x34, 0x12])) (fun t => t.regs.b == 0x12 && t.regs.c == 0x34 && t.pc == 0x0103) = true ∧
    nextHas (step (start [0x31, 0x00, 0x01])) (fun t => t.sp == 0x0100) = true := by decide

/-- V1.12, V1.13 -/
theorem test_lda_sta :
    nextHas (step (poke 0x0300 0x21 (start [0x3A, 0x00, 0x03]))) (fun t => t.regs.a == 0x21) = true ∧
    nextHas (step (withA 0x44 false (start [0x32, 0xB3, 0x05]))) (fun t => t.byteAt 0x05B3 == 0x44) = true := by decide

/-- V1.14, V1.19: the highest legal word -/
theorem test_lhld :
    nextHas (step (poke 0x025C 3 (poke 0x025B 0xFF (start [0x2A, 0x5B, 0x02])))) (fun t => t.regs.l == 0xFF && t.regs.h == 3) = true ∧
    nextHas (step (poke 0xFFFF 0x12 (poke 0xFFFE 0x34 (start [0x2A, 0xFE, 0xFF])))) (fun t => t.regs.l == 0x34 && t.regs.h == 0x12) = true := by decide

/-- V1.15 -/
theorem test_shld :
    nextHas (step ((start [0x22, 0x0A, 0x01]).setPair .hl 0xAE29)) (fun t => t.byteAt 0x010A == 0x29 && t.byteAt 0x010B == 0xAE) = true := by decide

/-- V1.16, V1.17 -/
theorem test_ldax_stax :
    nextHas (step (poke 0x938B 0x9F ((start [0x1A]).setPair .de 0x938B))) (fun t => t.regs.a == 0x9F) = true ∧
    nextHas (step (withA 0x44 false ((start [0x02]).setPair .bc 0x3F16))) (fun t => t.byteAt 0x3F16 == 0x44) = true := by decide

/-- V1.18 -/
theorem test_xchg :
    nextHas (step (((start [0xEB]).setPair .hl 0x00FF).setPair .de 0x3355)) (fun t => t.regs.h == 0x33 && t.regs.l == 0x55 && t.regs.d == 0 && t.regs.e == 0xFF) = true := by decide

/-- V2.1: the register, memory and immediate forms -/
theorem test_add :
    nextHas (step (withA 0x3A false ((start [0x80]).setReg .b 0xC6))) (fun t => aluIs t 0x00 true false true true true) = true ∧
    nextHas (step (withA 0x7F false (withM 0x01 (start [0x86])))) (fun t => aluIs t 0x80 false true false false true) = true ∧
    nextHas (step (withA 0x80 false (start [0xC6, 0x80]))) (fun t => aluIs t 0x00 true false true true false) = true ∧
    nextHas (step (withA 0x00 true ((start [0x80]).setReg .b 0x00))) (fun t => aluIs t 0x00 true false true false false) = true := by decide

/-- V2.2: the carry is a third term of both sums -/
theorem test_adc :
    nextHas (step (withA 0x00 true ((start [0x88]).setReg .b 0xFF))) (fun t => aluIs t 0x00 true false true true true) = true ∧
    nextHas (step (withA 0x42 true (withM 0x3D (start [0x8E])))) (fun t => aluIs t 0x80 false true false false true) = true ∧
    nextHas (step (withA 0x01 true (start [0xCE, 0x0F]))) (fun t => aluIs t 0x11 false false true false true) = true ∧
    nextHas (step (withA 0x42 false ((start [0x88]).setReg .b 0x3D))) (fun t => aluIs t 0x7F false false false false false) = true := by decide

/-- V2.3: CY and AC are borrows -/
theorem test_sub :
    nextHas (step (withA 0x00 false ((start [0x90]).setReg .b 0x01))) (fun t => aluIs t 0xFF false true true true true) = true ∧
    nextHas (step (withA 0x80 false (withM 0x01 (start [0x96])))) (fun t => aluIs t 0x7F false false false false true) = true ∧
    nextHas (step (withA 0x10 false (start [0xD6, 0x01]))) (fun t => aluIs t 0x0F false false true false true) = true ∧
    nextHas (step (withA 0x05 true ((start [0x90]).setReg .b 0x03))) (fun t => aluIs t 0x02 false false false false false) = true := by decide

/-- V2.4: the borrow-in is not truncated into the operand -/
theorem test_sbb :
    nextHas (step (withA 0x00 true ((start [0x98]).setReg .b 0xFF))) (fun t => aluIs t 0x00 true false true true true) = true ∧
    nextHas (step (withA 0x10 true (withM 0x0F (start [0x9E])))) (fun t => aluIs t 0x00 true false true false true) = true ∧
    nextHas (step (withA 0x05 true (start [0xDE, 0x05]))) (fun t => aluIs t 0xFF false true true true true) = true ∧
    nextHas (step (withA 0x05 false ((start [0x98]).setReg .b 0x05))) (fun t => aluIs t 0x00 true false true false false) = true := by decide

/-- V2.5: CY and AC are cleared -/
theorem test_ana :
    nextHas (step (withA 0xFC true ((start [0xA0]).setReg .b 0x0F))) (fun t => aluIs t 0x0C false false true false false) = true ∧
    nextHas (step (withA 0xF0 true (withM 0x0F (start [0xA6])))) (fun t => aluIs t 0x00 true false true false false) = true ∧
    nextHas (step (withA 0xFF true (start [0xE6, 0x80]))) (fun t => aluIs t 0x80 false true false false false) = true := by decide

/-- V2.5 -/
theorem test_xra :
    nextHas (step (withA 0x5C true ((start [0xA8]).setReg .b 0x78))) (fun t => aluIs t 0x24 false false true false false) = true ∧
    nextHas (step (withA 0xFF true (withM 0xFF (start [0xAE])))) (fun t => aluIs t 0x00 true false true false false) = true ∧
    nextHas (step (withA 0x0F true (start [0xEE, 0x80]))) (fun t => aluIs t 0x8F false true false false false) = true := by decide

/-- V2.5 -/
theorem test_ora :
    nextHas (step (withA 0x33 true ((start [0xB0]).setReg .b 0x0F))) (fun t => aluIs t 0x3F false false true false false) = true ∧
    nextHas (step (withA 0x00 true (withM 0x00 (start [0xB6])))) (fun t => aluIs t 0x00 true false true false false) = true ∧
    nextHas (step (withA 0x80 true (start [0xF6, 0x01]))) (fun t => aluIs t 0x81 false true true false false) = true := by decide

/-- V2.6: A is kept -/
theorem test_cmp :
    nextHas (step (withA 0x02 false ((start [0xB8]).setReg .b 0x05))) (fun t => aluIs t 0x02 false true false true true) = true ∧
    nextHas (step (withA 0xE5 false (withM 0x05 (start [0xBE])))) (fun t => aluIs t 0xE5 false true false false false) = true ∧
    nextHas (step (withA 0x05 false (start [0xFE, 0x05]))) (fun t => aluIs t 0x05 true false true false false) = true ∧
    nextHas (step (withA 0x00 false ((start [0xB8]).setReg .b 0xFF))) (fun t => aluIs t 0x00 false false false true true) = true := by decide

/-- V3.1: CY stays 1 -/
theorem test_inr :
    nextHas (step (((start [0x04]).setReg .b 0xFF).setCarry true)) (fun t => t.regs.b == 0x00 && t.flags == ⟨true, false, true, true, true⟩) = true ∧
    nextHas (step ((withM 0xFF (start [0x34])).setCarry true)) (fun t => t.byteAt 0x2000 == 0x00 && t.flags == ⟨true, false, true, true, true⟩) = true ∧
    nextHas (step (((start [0x04]).setReg .b 0x7F).setCarry true)) (fun t => t.regs.b == 0x80 && t.flags == ⟨false, true, false, true, true⟩) = true ∧
    nextHas (step ((withM 0x7F (start [0x34])).setCarry true)) (fun t => t.byteAt 0x2000 == 0x80 && t.flags == ⟨false, true, false, true, true⟩) = true := by decide

/-- V3.2: AC is the low-nibble borrow -/
theorem test_dcr :
    nextHas (step (((start [0x05]).setReg .b 0x00).setCarry true)) (fun t => t.regs.b == 0xFF && t.flags == ⟨false, true, true, true, true⟩) = true ∧
    nextHas (step ((withM 0x00 (start [0x35])).setCarry true)) (fun t => t.byteAt 0x2000 == 0xFF && t.flags == ⟨false, true, true, true, true⟩) = true ∧
    nextHas (step (((start [0x05]).setReg .b 0x0F).setCarry true)) (fun t => t.regs.b == 0x0E && t.flags == ⟨false, false, false, true, false⟩) = true ∧
    nextHas (step ((withM 0x0F (start [0x35])).setCarry true)) (fun t => t.byteAt 0x2000 == 0x0E && t.flags == ⟨false, false, false, true, false⟩) = true := by decide

/-- V3.3 lines 1, 6, 7, 9 -/
theorem test_daa :
    nextHas (step (((start [0x27]).setFlags ⟨true, true, true, false, false⟩).setReg .a 0x0F)) (fun t => aluIs t 0x15 false false false false true) = true ∧
    nextHas (step (((start [0x27]).setFlags ⟨true, true, true, true, true⟩).setReg .a 0x32)) (fun t => aluIs t 0x38 false false false false false) = true ∧
    nextHas (step (((start [0x27]).setFlags ⟨true, true, true, false, false⟩).setReg .a 0xFA)) (fun t => aluIs t 0x60 false false true false false) = true ∧
    nextHas (step (((start [0x27]).setFlags ⟨true, true, true, false, false⟩).setReg .a 0x9A)) (fun t => aluIs t 0x00 true false true true false) = true := by decide

/-- V3.3 lines 8, 11, 3, 12: no step, the high step only, the low step by AC, the high step by CY -/
theorem test_daa_boundaries :
    nextHas (step (((start [0x27]).setFlags ⟨true, true, true, false, false⟩).setReg .a 0x99)) (fun t => aluIs t 0x99 true true true false false) = true ∧
    nextHas (step (((start [0x27]).setFlags ⟨true, true, true, false, false⟩).setReg .a 0xA0)) (fun t => aluIs t 0x00 true false true true false) = true ∧
    nextHas (step (((start [0x27]).setFlags ⟨true, true, true, false, true⟩).setReg .a 0x10)) (fun t => aluIs t 0x16 false false false false false) = true ∧
    nextHas (step (((start [0x27]).setFlags ⟨true, true, true, true, false⟩).setReg .a 0x15)) (fun t => aluIs t 0x75 false false false false false) = true := by decide

/-- V3.4 RLC, RAL -/
theorem test_rotate_left :
    nextHas (step (withA 0xF2 false (start [0x07]))) (fun t => aluIs t 0xE5 false false false true false) = true ∧
    nextHas (step (withA 0x6A true (start [0x07]))) (fun t => aluIs t 0xD4 false false false false false) = true ∧
    nextHas (step (withA 0x6A true (start [0x17]))) (fun t => aluIs t 0xD5 false false false false false) = true ∧
    nextHas (step (withA 0xB5 false (start [0x17]))) (fun t => aluIs t 0x6A false false false true false) = true := by decide

/-- V3.4 RRC, RAR: RAR giving 0 does not set Z -/
theorem test_rotate_right :
    nextHas (step (withA 0x01 false (start [0x0F]))) (fun t => aluIs t 0x80 false false false true false) = true ∧
    nextHas (step (withA 0x80 true (start [0x0F]))) (fun t => aluIs t 0x40 false false false false false) = true ∧
    nextHas (step (withA 0x01 false (start [0x1F]))) (fun t => aluIs t 0x00 false false false true false) = true ∧
    nextHas (step (withA 0x80 true (start [0x1F]))) (fun t => aluIs t 0xC0 false false false false false) = true := by decide

/-- V3.5 -/
theorem test_cma_stc_cmc :
    nextHas (step (withA 0x51 true (start [0x2F]))) (fun t => aluIs t 0xAE false false false true false) = true ∧
    nextHas (step (withA 0x51 false (start [0x37]))) (fun t => aluIs t 0x51 false false false true false) = true ∧
    nextHas (step (withA 0x51 true (start [0x3F]))) (fun t => aluIs t 0x51 false false false false false) = true ∧
    nextHas (step (withA 0x51 false (start [0x3F]))) (fun t => aluIs t 0x51 false false false true false) = true := by decide

/-- V4.1, V4.2: SP wraps -/
theorem test_inx :
    nextHas (step ((start [0x13]).setPair .de 0x38FF)) (fun t => t.pair .de == 0x3900) = true ∧
    nextHas (step ((start [0x33]).setSp 0xFFFF)) (fun t => t.sp == 0 && !t.flags.z) = true := by decide

/-- V4.3, V4.4, V4.5 -/
theorem test_dcx :
    nextHas (step ((start [0x2B]).setPair .hl 0x9800)) (fun t => t.pair .hl == 0x97FF) = true ∧
    nextHas (step ((start [0x0B]).setPair .bc 0)) (fun t => t.pair .bc == 0xFFFF) = true ∧
    nextHas (step ((start [0x3B]).setSp 0)) (fun t => t.sp == 0xFFFF) = true := by decide

/-- V4.6 to V4.10 -/
theorem test_dad :
    nextHas (step (((start [0x09]).setPair .hl 0x339F).setPair .bc 0xA17B)) (fun t => t.pair .hl == 0xD51A && !t.flags.cy) = true ∧
    nextHas (step (((start [0x19]).setPair .hl 0xFFFF).setPair .de 1)) (fun t => t.pair .hl == 0 && t.flags.cy && !t.flags.z) = true ∧
    nextHas (step ((start [0x29]).setPair .hl 0x8001)) (fun t => t.pair .hl == 2 && t.flags.cy) = true ∧
    nextHas (step (((start [0x39]).setPair .hl 0).setSp 0x1234)) (fun t => t.pair .hl == 0x1234 && t.sp == 0x1234) = true := by decide

/-- V5.1, V5.10: the lowest legal push -/
theorem test_push :
    nextHas (step (((start [0xC5]).setPair .bc 0x1234).setSp 0x0100)) (fun t => t.byteAt 0x00FE == 0x34 && t.byteAt 0x00FF == 0x12 && t.sp == 0x00FE) = true ∧
    nextHas (step (((start [0xC5]).setPair .bc 0xABCD).setSp 2)) (fun t => t.byteAt 0 == 0xCD && t.byteAt 1 == 0xAB && t.sp == 0) = true := by decide

/-- V5.3, V5.4 -/
theorem test_push_psw :
    nextHas (step ((((start [0xF5]).setReg .a 0x1F).setFlags ⟨true, false, true, true, false⟩).setSp 0x502A)) (fun t => t.byteAt 0x5028 == 0x47 && t.byteAt 0x5029 == 0x1F && t.sp == 0x5028) = true ∧
    nextHas (step ((((start [0xF5]).setReg .a 0xAA).setFlags ⟨false, true, false, false, true⟩).setSp 0x0100)) (fun t => t.byteAt 0x00FE == 0x92 && t.byteAt 0x00FF == 0xAA && t.sp == 0x00FE) = true := by decide

/-- V5.2, V5.11: the highest legal pop -/
theorem test_pop :
    nextHas (step (poke 0x123A 0x93 (poke 0x1239 0x3D ((start [0xE1]).setSp 0x1239)))) (fun t => t.regs.l == 0x3D && t.regs.h == 0x93 && t.sp == 0x123B) = true ∧
    nextHas (step (poke 0xFFFE 0x22 (poke 0xFFFD 0x11 ((start [0xC1]).setSp 0xFFFD)))) (fun t => t.regs.c == 0x11 && t.regs.b == 0x22 && t.sp == 0xFFFF) = true := by decide

/-- V5.5, V5.6 -/
theorem test_pop_psw :
    nextHas (step ((poke 0x2C01 0xFF (poke 0x2C00 0xC3 (start [0xF1]))).setSp 0x2C00)) (fun t => aluIs t 0xFF true true false true false && t.sp == 0x2C02) = true ∧
    nextHas (step ((poke 0x2C01 0x12 (poke 0x2C00 0xFF (start [0xF1]))).setSp 0x2C00)) (fun t => aluIs t 0x12 true true true true true) = true := by decide

/-- V5.8, V5.9 -/
theorem test_xthl_sphl :
    nextHas (step (poke 0x10AE 0x0D (poke 0x10AD 0xF0 (((start [0xE3]).setSp 0x10AD).setPair .hl 0x0B3C)))) (fun t => t.pair .hl == 0x0DF0 && t.byteAt 0x10AD == 0x3C && t.byteAt 0x10AE == 0x0B && t.sp == 0x10AD) = true ∧
    nextHas (step ((start [0xF9]).setPair .hl 0x506C)) (fun t => t.sp == 0x506C) = true := by decide

/-- The flags Z, CY, P, S of table V6.1 at once. -/
def withZcps (z cy p s : Bool) (st : State) : State := st.setFlags { z := z, s := s, p := p, cy := cy, ac := false }

/-- Whether a conditional jump, call and return with code `ccc` are taken, each as V6.1 says. -/
def branches (ccc : Nat) (z cy p s : Bool) (taken : Bool) : Bool :=
  nextHas (step (withZcps z cy p s (start [BitVec.ofNat 8 (0xC2 + 8 * ccc), 0x34, 0x12])))
    (fun t => t.pc == (if taken then 0x1234 else 0x0103) && t.sp == 0x2000) &&
  nextHas (step (withZcps z cy p s (start [BitVec.ofNat 8 (0xC4 + 8 * ccc), 0x34, 0x12])))
    (fun t => t.pc == (if taken then 0x1234 else 0x0103) && t.sp == (if taken then 0x1FFE else 0x2000) &&
      t.byteAt 0x1FFE == (if taken then 0x03 else Config.unlistedByte) && t.report.any (fun r => r.cycles == if taken then 17 else 11)) &&
  nextHas (step (withZcps z cy p s (poke 0x2001 0x56 (poke 0x2000 0x78 (start [BitVec.ofNat 8 (0xC0 + 8 * ccc)])))))
    (fun t => t.pc == (if taken then 0x5678 else 0x0101) && t.sp == (if taken then 0x2002 else 0x2000))

/-- V6.1: each condition reads its one flag: with Z = 1 and the other three 0, exactly Z, NC, PO, P are taken. -/
theorem test_conditions_z :
    branches 0 true false false false false = true ∧ branches 1 true false false false true = true ∧
    branches 2 true false false false true = true ∧ branches 3 true false false false false = true ∧
    branches 4 true false false false true = true ∧ branches 5 true false false false false = true ∧
    branches 6 true false false false true = true ∧ branches 7 true false false false false = true := by decide

/-- V6.1 with CY = P = 1 and Z = S = 0: NZ, C, PE, P are taken. -/
theorem test_conditions_cy_p :
    branches 0 false true true false true = true ∧ branches 1 false true true false false = true ∧
    branches 2 false true true false false = true ∧ branches 3 false true true false true = true ∧
    branches 4 false true true false false = true ∧ branches 5 false true true false true = true ∧
    branches 6 false true true false true = true ∧ branches 7 false true true false false = true ∧
    branches 7 false false false true true = true := by decide

/-- V6.2 -/
theorem test_jumps_and_calls :
    nextHas (step (start [0xC3, 0x34, 0x12])) (fun t => t.pc == 0x1234 && t.sp == 0x2000) = true ∧
    nextHas (step (start [0xCB, 0x34, 0x12])) (fun t => t.pc == 0x1234) = true ∧
    nextHas (step (start [0xCD, 0x34, 0x12])) (fun t => t.pc == 0x1234 && t.sp == 0x1FFE && t.byteAt 0x1FFE == 3 && t.byteAt 0x1FFF == 1) = true ∧
    nextHas (step (start [0xED, 0x34, 0x12])) (fun t => t.pc == 0x1234 && t.byteAt 0x1FFE == 3 && t.byteAt 0x1FFF == 1) = true ∧
    nextHas (step ((start [0xE9]).setPair .hl 0x413E)) (fun t => t.pc == 0x413E) = true := by decide

/-- V6.2, V6.3 -/
theorem test_returns_and_rst :
    nextHas (step (poke 0x2001 0x56 (poke 0x2000 0x78 (start [0xC9])))) (fun t => t.pc == 0x5678 && t.sp == 0x2002) = true ∧
    nextHas (step (poke 0x2001 0x56 (poke 0x2000 0x78 (start [0xD9])))) (fun t => t.pc == 0x5678 && t.sp == 0x2002) = true ∧
    nextHas (step (start [0xEF])) (fun t => t.pc == 0x0028 && t.sp == 0x1FFE && t.byteAt 0x1FFE == 1 && t.byteAt 0x1FFF == 1) = true := by decide

/-- V7.1, V7.2 -/
theorem test_in_out :
    nextHas (step ({ (withA 0x5A false (start [0xDB, 0x10])) with portAnswers := [0xC3] })) (fun t => t.regs.a == 0xC3 && t.portEvents == [.read 0x10 0xC3] && t.pc == 0x0102) = true ∧
    nextHas (step (withA 0x5A false (start [0xD3, 0x10]))) (fun t => t.regs.a == 0x5A && t.portEvents == [.write 0x10 0x5A] && t.pc == 0x0102) = true := by decide

/-- V7.3, V7.5 -/
theorem test_ei_di :
    nextHas (step (start [0xFB])) (fun t => t.ie) = true ∧
    nextHas (step ((start [0xF3]).setIe true)) (fun t => !t.ie) = true := by decide

/-- V7.6 to V7.8 -/
theorem test_hlt_nop :
    nextHas (step ((start [0x76]).setIe true)) (fun t => t.halts && t.pc == 0x0101 && t.ie && t.report == some ⟨7, true⟩) = true ∧
    nextHas (step (start [0x00])) (fun t => !t.halts && t.pc == 0x0101 && t.report == some ⟨4, false⟩) = true ∧
    nextHas (step (start [0x38])) (fun t => t.pc == 0x0101) = true := by decide

/-- The state of V8.1, with the host's next action an interrupt. -/
def interrupted (v : BitVec 3) (ie : Bool) (sp : Word) : State :=
  { State.reset with pc := 0x1234, sp := sp, ie := ie, hostActions := [.interrupt v] }

/-- V8.1: delivered, dropped, and the push that leaves the address space. -/
theorem test_interrupt :
    nextHas (step (interrupted 2 true 0x2000)) (fun t => !t.ie && t.pc == 0x0010 && t.sp == 0x1FFE &&
      t.byteAt 0x1FFE == 0x34 && t.byteAt 0x1FFF == 0x12 && t.report == none) = true ∧
    nextHas (step (interrupted 7 true 0x2000)) (fun t => t.pc == 0x0038) = true ∧
    nextHas (step (interrupted 2 false 0x2000)) (fun t => t.pc == 0x1234 && t.sp == 0x2000 && t.mem == []) = true ∧
    faultOf (step (interrupted 2 true 0x0001)) = some (.addressFault (-1)) := by decide

/-- V9.1 to V9.4, V9.12 to V9.15 -/
theorem test_stack_faults :
    faultOf (step ((start [0xC5]).setSp 1)) = some (.addressFault (-1)) ∧
    faultOf (step ((start [0xC5]).setSp 0)) = some (.addressFault (-2)) ∧
    faultOf (step ((start [0xC1]).setSp 0xFFFE)) = some (.addressFault 0x10000) ∧
    faultOf (step ((start [0xC1]).setSp 0xFFFF)) = some (.addressFault 0x10000) ∧
    faultOf (step ((start [0xE3]).setSp 0xFFFF)) = some (.addressFault 0x10000) ∧
    faultOf (step ((start [0xFF]).setSp 1)) = some (.addressFault (-1)) ∧
    faultOf (step ((start [0xCD, 0x34, 0x12]).setSp 0)) = some (.addressFault (-2)) ∧
    faultOf (step ((start [0xC9]).setSp 0xFFFF)) = some (.addressFault 0x10000) := by decide

/-- The bytes at an address where PC is. -/
def startAt (pc : Word) (bytes : List Byte) : State :=
  { State.reset with pc := pc, sp := 0x2000, mem := placeBytes pc.toNat bytes [] }

/-- V9.5 to V9.9: no executed instruction has a byte at 0xFFFF; the highest legal placements do not fault. -/
theorem test_fetch_faults :
    faultOf (step (startAt 0xFFFF [0x00])) = some (.addressFault 0x10000) ∧
    faultOf (step (startAt 0xFFFE [0x3E, 0x05])) = some (.addressFault 0x10000) ∧
    faultOf (step (startAt 0xFFFD [0xC3, 0x00, 0x00])) = some (.addressFault 0x10000) ∧
    nextHas (step (startAt 0xFFFC [0xC3, 0x00, 0x00])) (fun t => t.pc == 0x0000) = true ∧
    nextHas (step (startAt 0xFFFE [0x76])) (fun t => t.pc == 0xFFFF && t.halts) = true := by decide

/-- V9.10, V9.11 -/
theorem test_word_access_faults :
    faultOf (step (start [0x2A, 0xFF, 0xFF])) = some (.addressFault 0x10000) ∧
    faultOf (step (start [0x22, 0xFF, 0xFF])) = some (.addressFault 0x10000) := by decide

/-- V9.16, V9.18 -/
theorem test_no_faults :
    nextHas (step (((start [0xC4, 0x34, 0x12]).setFlags ⟨true, false, false, false, false⟩).setSp 0)) (fun t => t.pc == 0x0103 && t.sp == 0) = true ∧
    nextHas (step (poke 0xFFFF 0x42 ((start [0x7E]).setPair .hl 0xFFFF))) (fun t => t.regs.a == 0x42) = true := by decide

/-- An unlisted byte reads as the fill byte, and writing the fill byte removes the entry (log entry 4). -/
theorem test_memory_canonical :
    (State.reset.byteAt 0x1234 == Config.unlistedByte) = true ∧ (poke 5 Config.unlistedByte (poke 5 1 State.reset)).mem = [] ∧
    (poke 3 1 (poke 5 2 State.reset)).mem = [(3, 1), (5, 2)] := by decide

/-! ### Witnesses: the hypotheses of each obligation can be met -/

theorem test_witness_DecodingAnEncodedInstructionGivesItBack :
    (Instr.callAlias 3 0xFFFF).wf = true ∧ (Instr.nopAlias 1).wf = true ∧ (Instr.movRR .a .b).wf = true := by decide

theorem test_witness_EncodingADecodedInstructionGivesItsBytes :
    decode [0xDD, 0x00, 0x40, 0x99] = .ok (.callAlias 1 0x4000, [0x99]) := rfl

theorem test_witness_EveryFirstByteHasAnInstruction :
    opLength 0xC3 ≤ [0x34, 0x12].length + 1 ∧ [0x34].length + 1 < opLength 0xC3 ∧ opLength 0x00 ≤ ([] : List Byte).length + 1 ∧
    opLength 0x3E ≤ [0x05].length + 1 ∧ ([] : List Byte).length + 1 < opLength 0x3E := by decide

theorem test_witness_PairsAreViewsOfTheirRegisters : RegPair.de ≠ RegPair.bc ∧ RegPair.hl ≠ RegPair.sp := by decide

theorem test_witness_MemoryReadsBackTheLastWrite :
    ((0 : Int) ≤ 0 ∧ (0 : Int) ≤ 0xFFFF) ∧ ((0 : Int) ≤ 0xFFFF ∧ (0xFFFF : Int) ≤ 0xFFFF) ∧ (1 : Int) ≠ 0 ∧
    ¬ ((0 : Int) ≤ -1 ∧ (-1 : Int) ≤ 0xFFFF) ∧ ¬ ((0 : Int) ≤ 0x10000 ∧ (0x10000 : Int) ≤ 0xFFFF) := by decide

/-- An address below 0xFFFF at its boundary, and 0xFFFF: for WordAccessesAreLittleEndian, LhldLoadsHLFromMemory and
ShldStoresHLToMemory. -/
theorem test_witness_word_addresses :
    (0xFFFE : Word).toNat < 0xFFFF ∧ (0x0000 : Word).toNat < 0xFFFF ∧ (0xFFFF : Word).toNat = 0xFFFF := by decide

theorem test_witness_EqualMemoriesAreEqualData :
    Memory.wf [(0, 0x00), (65535, 0x01)] ∧ ∀ a, a < 65536 → memGet [(0, 0x00), (65535, 0x01)] a = memGet [(0, 0x00), (65535, 0x01)] a :=
  ⟨by decide, fun _ _ => rfl⟩

theorem test_witness_ArithmeticIdentities : Reg8.b ≠ Reg8.a ∧ Instr.xraR .a ∈ [Instr.subR .a, Instr.xraR .a] := by decide

/-- DaaIsTwoConditionalAdditions: both cases of the first test at the boundary, and of the second on what the first
leaves (9 and 10 in a nibble; AC and CY alone). -/
theorem test_witness_DaaIsTwoConditionalAdditions :
    ((withA 0x0A false (start [])).regs.a.toNat % 16 > 9 ∨ (withA 0x0A false (start [])).flags.ac = true) ∧
    ¬ ((withA 0x09 false (start [])).regs.a.toNat % 16 > 9 ∨ (withA 0x09 false (start [])).flags.ac = true) ∧
    ((daaLow (withA 0xA0 false (start []))).regs.a.toNat / 16 > 9 ∨ (daaLow (withA 0xA0 false (start []))).flags.cy = true) ∧
    ((daaLow (withA 0x15 true (start []))).flags.cy = true) ∧
    ¬ ((daaLow (withA 0x99 false (start []))).regs.a.toNat / 16 > 9 ∨
      (daaLow (withA 0x99 false (start []))).flags.cy = true) := by decide

/-- SP at the boundaries of a push, a pop and XTHL: for PushStoresTheWordBelowSP, PopLoadsTheWordAtSP, PopUndoesPush,
XthlAndSphlMoveHL, CallsPushPCAndJump, the conditional calls and returns, ReturnsPopIntoPC and
ReturnComesBackAfterTheCall. -/
theorem test_witness_stack_pointers :
    2 ≤ ((start []).setSp 2).sp.toNat ∧ ((start []).setSp 1).sp.toNat < 2 ∧ ((start []).setSp 0xFFFD).sp.toNat < 0xFFFE ∧
    0xFFFE ≤ ((start []).setSp 0xFFFE).sp.toNat ∧ ((start []).setSp 0xFFFE).sp.toNat < 0xFFFF ∧
    ((start []).setSp 0xFFFF).sp.toNat = 0xFFFF := by decide

/-- The statements over lists of instructions: each names a member. -/
theorem test_witness_members :
    (Instr.pushD, RegPair.de) ∈ [(Instr.pushB, RegPair.bc), (.pushD, .de), (.pushH, .hl)] ∧
    (Instr.popH, RegPair.hl) ∈ [(Instr.popB, RegPair.bc), (.popD, .de), (.popH, .hl)] ∧
    Instr.rst 7 ∈ [Instr.call 0x1234, Instr.callAlias 1 0x1234, Instr.rst 7] ∧ Instr.retAlias ∈ [Instr.ret, Instr.retAlias] ∧
    (Instr.di, false) ∈ [(Instr.ei, true), (Instr.di, false)] := by decide

/-- The conditional jumps, calls and returns: a flag with the value asked for, and without. -/
theorem test_witness_conditions :
    (withZcps true false false false (start [])).flags.z = true ∧ (withZcps true false false false (start [])).flags.z ≠ false ∧
    (withZcps false true false false (start [])).flags.cy = true ∧ (withZcps false true false false (start [])).flags.p = false ∧
    (withZcps false false false true (start [])).flags.s = true ∧ (withZcps false false false true (start [])).flags.s ≠ false := by
  decide

theorem test_witness_InPutsTheHostsAnswerInA :
    ({ start [] with portAnswers := [0xC3, 0x01] } : State).portAnswers = 0xC3 :: [0x01] ∧ (start []).portAnswers = [] := by
  decide

theorem test_witness_InterruptDelivery :
    (interrupted 2 true 2).ie = true ∧ 2 ≤ (interrupted 2 true 2).sp.toNat ∧
    (interrupted 7 true 1).ie = true ∧ (interrupted 7 true 1).sp.toNat < 2 ∧ (interrupted 2 false 2).ie = false := by decide

theorem test_witness_InterruptWithIEClearIsDropped :
    (interrupted 2 false 0).hostActions = .interrupt 2 :: [] ∧ (interrupted 2 false 0).ie = false := by decide

theorem test_witness_SecondInterruptInARowHasNoEffect :
    ({ interrupted 2 true 2 with hostActions := [.interrupt 2, .interrupt 5, .step] } : State).hostActions
      = .interrupt 2 :: .interrupt 5 :: [.step] ∧ (interrupted 2 true 2).ie = true ∧ 2 ≤ (interrupted 2 true 2).sp.toNat := by
  decide

theorem test_witness_ReturnFromInterruptRestoresPC :
    ((start []).setIe true).ie = true ∧ 2 ≤ ((start []).setIe true).sp.toNat := by decide

/-- A completed instruction of each kind: for HaltAndNoOperation, InterruptEnableIsWrittenByEiDiAndDelivery,
CompletedInstructionsReportTheirCount, OnlyTheNamedBytesAreStored, OnlyTheNamedFlagsAreWritten and
OnlyInAndOutReachAPort. -/
theorem test_witness_completed :
    (∃ t, exec .hlt (start []) = .next t) ∧ (∃ t, exec .ei (start []) = .next t) ∧ (∃ t, exec .di (start []) = .next t) ∧
    (∃ t, exec (.addR .b) (start []) = .next t) ∧ (∃ t, exec (.inp 0x10) (start []) = .next t) ∧
    (∃ t, exec (.out 0x10) (start []) = .next t) ∧ (∃ t, exec .pushB (start []) = .next t) ∧
    (∃ t, interrupt 2 ((start []).setIe true) = .next t) ∧ ((start []).setIe true).ie = true ∧ (start []).ie = false ∧ Instr.pushB ≠ .ei ∧ Instr.pushB ≠ .di :=
  ⟨⟨_, rfl⟩, ⟨_, rfl⟩, ⟨_, rfl⟩, ⟨_, rfl⟩, ⟨_, rfl⟩, ⟨_, rfl⟩, ⟨_, rfl⟩, ⟨_, rfl⟩, rfl, rfl, by decide, by decide⟩

/-- StepRunsTheDecodedInstruction: an instruction that ends at the highest legal address, and one past it. -/
theorem test_witness_StepRunsTheDecodedInstruction :
    (∀ v l, (startAt 0xFFFC [0xC3, 0x00, 0x00]).hostActions ≠ .interrupt v :: l) ∧
    decode [(startAt 0xFFFC [0xC3, 0x00, 0x00]).byteAt 0xFFFC, (startAt 0xFFFC [0xC3, 0x00, 0x00]).byteAt 0xFFFD,
      (startAt 0xFFFC [0xC3, 0x00, 0x00]).byteAt 0xFFFE] = .ok (.jmp 0, []) ∧
    (0xFFFC : Word).toNat + (Instr.jmp 0).size ≤ 0xFFFF ∧
    decode [(startAt 0xFFFD [0xC3, 0x00, 0x00]).byteAt 0xFFFD, (startAt 0xFFFD [0xC3, 0x00, 0x00]).byteAt 0xFFFE,
      (startAt 0xFFFD [0xC3, 0x00, 0x00]).byteAt 0xFFFF] = .ok (.jmp 0, []) ∧
    0xFFFF < (0xFFFD : Word).toNat + (Instr.jmp 0).size ∧ (interrupted 2 true 2).hostActions = .interrupt 2 :: [] :=
  ⟨(fun _ _ h => nomatch h), rfl, by decide, rfl, by decide, rfl⟩

theorem test_witness_StepFaultsExactlyWhereTheTableSays :
    faultOf (step (startAt 0xFFFF [0x00])) = some (.addressFault 0x10000) ∧ stepFault (startAt 0x0100 [0x00]) = none := by decide

/-- AStoreIsSeenByTheNextFetch: a store to the highest address a fetch can read, a read-modify-write, a push. -/
theorem test_witness_AStoreIsSeenByTheNextFetch :
    (∃ t, exec (.sta 0xFFFE) (start []) = .next t) ∧ ((0xFFFE : Word), (0 : Byte)) ∈ storedData (.sta 0xFFFE) (start []) ∧
    (∃ t, exec .inrM (start []) = .next t) ∧ ((start []).hl, (start []).byteAt (start []).hl + 1) ∈ storedData .inrM (start []) ∧
    (∃ t, exec (.call 0x1234) (start []) = .next t) ∧
    ((start []).sp - 1, hi8 (start []).pc) ∈ storedData (.call 0x1234) (start []) ∧ (0xFFFE : Word).toNat < 0xFFFF :=
  ⟨⟨_, rfl⟩, by decide, ⟨_, rfl⟩, by decide, ⟨_, rfl⟩, by decide, by decide⟩

theorem test_witness_EveryStepKeepsTheInvariant :
    Inv ((start [0x00]).setReport (some { cycles := 7, halt := true })) ∧
    ∃ t, step ((start [0x00]).setReport (some { cycles := 7, halt := true })) = .next t :=
  ⟨⟨by decide, fun _ h => ⟨.hlt, false, by cases h; rfl⟩⟩, ⟨_, rfl⟩⟩

/-- ResetBuildsAFreshMachine: an image that ends at 0xFFFF fits, so does one of no bytes anywhere; one byte more does
not. -/
theorem test_witness_ResetBuildsAFreshMachine :
    (∀ x ∈ [((0xFFFF : Nat), [(0x01 : Byte)]), (0x12345, [])], x.2 = [] ∨ x.1 + x.2.length ≤ 0x10000) ∧
    (∃ x ∈ [((0xFFFF : Nat), [(0x01 : Byte), 0x02])], x.2 ≠ [] ∧ 0x10000 < x.1 + x.2.length) := by decide

/-- MEM_FILL is an argument (R4): with 0x00 every byte of memory reads as 0x00. -/
theorem test_reset_fill (g : ResetRegs) (a : Word) :
    (State.resetWith 0x00 [] g 0x0000).map (fun s => s.byteAt a) = some 0x00 :=
  resetWith_byteAt 0x00 g 0x0000 a

/-- ARunEndsAtHaltFaultOrStop: a run of each end, and actions that do not fault. -/
theorem test_witness_ARunEndsAtHaltFaultOrStop :
    (∃ t, run 3 (start [0x00, 0x76]) = .halted t) ∧ (∃ t, run 2 (start [0x00, 0x00]) = .stopped t) ∧
    (∃ f, run 2 (startAt 0xFFFF [0x00]) = .faulted f) ∧ SafeFor 3 (start [0x00, 0x76, 0x00]) := by
  refine ⟨⟨_, rfl⟩, ⟨_, rfl⟩, ⟨_, rfl⟩, fun f h => ?_⟩
  obtain ⟨t, e⟩ : ∃ t, core.run 3 (start [0x00, 0x76, 0x00]) = .next t := ⟨_, rfl⟩
  rw [e] at h
  cases h

end Sys2Proof.Tests
end

section
/-! Reset with images (R280): loading places every image in list order exactly where all of them fit, and each byte
of the loaded memory is a fold over the images of the byte that was there before. -/

namespace Sys2Proof.Machine

/-- What one image of the list leaves at an address where `v` stood: its own byte where it has one there, else `v`. -/
def byteUnderImage (a : Nat) (v : Byte) (x : Nat × List Byte) : Byte :=
  if x.1 ≤ a then (x.2[a - x.1]?).getD v else v

/-- All images written over memory in list order, whether or not they fit. -/
def placeImages (image : List (Nat × List Byte)) (m : Memory) : Memory :=
  image.foldl (fun m x => placeBytes x.1 x.2 m) m

/-- Inside the address space a byte of the loaded bytes is read back at its place, every other byte as before. -/
theorem memGet_placeBytes (offset : Nat) (bytes : List Byte) (m : Memory) {a : Nat} (ha : a < Config.memSize) :
    memGet (placeBytes offset bytes m) a = byteUnderImage a (memGet m a) (offset, bytes) := by
  induction bytes generalizing offset m with
  | nil => simp [placeBytes, byteUnderImage]
  | cons b rest ih =>
    have hfirst : memGet (if offset < Config.memSize then memSet m offset b else m) a =
        if offset = a then b else memGet m a := by
      split
      · exact memGet_memSet m offset a b
      · next hout => rw [if_neg (by rintro rfl; exact hout ha)]
    rw [placeBytes, ih, hfirst]
    simp only [byteUnderImage]
    rcases Nat.lt_trichotomy offset a with hlt | rfl | hgt
    · have hidx : a - offset = a - (offset + 1) + 1 := by omega
      rw [if_pos (Nat.succ_le_of_lt hlt), if_pos hlt.le, if_neg hlt.ne, hidx, List.getElem?_cons_succ]
    · simp
    · rw [if_neg (Nat.not_le.2 (Nat.lt_succ_of_lt hgt)), if_neg (Nat.not_le.2 hgt), if_neg hgt.ne']

/-- Each byte after all images: the images act on it one after the other, so the last with a byte there wins. -/
theorem memGet_placeImages (image : List (Nat × List Byte)) (m : Memory) {a : Nat} (ha : a < Config.memSize) :
    memGet (placeImages image m) a = image.foldl (byteUnderImage a) (memGet m a) :=
  (List.foldl_hom (memGet · a) fun m x => (memGet_placeBytes x.1 x.2 m ha).symm).symm

/-- Loading gives a memory exactly where every image fits, and then it is the placing of them all (R280). -/
theorem loadImages_eq (image : List (Nat × List Byte)) (m : Memory) :
    loadImages image m =
      if ∀ x ∈ image, imageFits x.1 x.2 = true then some (placeImages image m) else none := by
  induction image generalizing m with
  | nil => simp [loadImages, placeImages]
  | cons x rest ih =>
    rw [loadImages, ih]
    by_cases hx : imageFits x.1 x.2 = true
    · simp only [List.forall_mem_cons, hx, true_and, if_true]
      rfl
    · simp only [List.forall_mem_cons, hx, false_and, if_false, Bool.false_eq_true]

/-- An image with a byte past 0xFFFF gives no machine (log entry 14). -/
theorem resetWith_eq_none {fill : Byte} {image : List (Nat × List Byte)} {g : ResetRegs} {pc : Word}
    (h : ∃ x ∈ image, imageFits x.1 x.2 = false) : State.resetWith fill image g pc = none := by
  have hload : loadImages image (filledMemory fill) = none := by
    rw [loadImages_eq, if_neg]
    simpa using h
  simp only [State.resetWith, hload]

/-- Where every image fits, reset gives the caller's registers, SP, flags and PC over the loaded memory. -/
theorem resetWith_eq_some {fill : Byte} {image : List (Nat × List Byte)} {g : ResetRegs} {pc : Word}
    (h : ∀ x ∈ image, imageFits x.1 x.2 = true) :
    State.resetWith fill image g pc =
      some { State.reset with
        regs := g.regs, sp := g.sp, flags := g.flags, pc := pc, ie := false
        mem := placeImages image (filledMemory fill) } := by
  simp only [State.resetWith, loadImages_eq, if_pos h]

/-- Placing images keeps the canonical form (log entry 4). -/
theorem placeImages_wf (image : List (Nat × List Byte)) {m : Memory} (h : Memory.wf m) :
    Memory.wf (placeImages image m) := by
  induction image generalizing m with
  | nil => exact h
  | cons x rest ih => exact ih (placeBytes_wf x.1 x.2 h)

/-- Settles O59: `loadImages_eq` decides whether there is a machine, and `memGet_placeImages` over the filled memory
gives its bytes. -/
theorem resetBuildsAFreshMachine : Obligations.ResetBuildsAFreshMachine := by
  refine ⟨fun fill image g pc => ⟨?_, fun hfit => ?_⟩, rfl, rfl⟩
  · rintro ⟨x, hx, hne, hlong⟩
    have hbad : imageFits x.1 x.2 = false := by
      rw [Bool.eq_false_iff, Ne, imageFits_iff]
      exact not_or.2 ⟨hne, Nat.not_le.2 hlong⟩
    exact resetWith_eq_none ⟨x, hx, hbad⟩
  · have hall : ∀ x ∈ image, imageFits x.1 x.2 = true := fun x hx => (imageFits_iff x.1 x.2).2 (hfit x hx)
    have hbyte (a : Word) : memGet (placeImages image (filledMemory fill)) a.toNat =
        image.foldl (byteUnderImage a.toNat) fill := by
      rw [memGet_placeImages image _ a.isLt, memGet_filledMemory fill a.isLt]
    exact ⟨_, resetWith_eq_some hall, rfl, rfl, rfl, rfl, rfl, rfl, rfl, placeImages_wf image (filledMemory_wf fill), hbyte⟩

end Sys2Proof.Machine
end

section
/-! The state's views (R22, R28): a pair in plain arithmetic, and the flag byte bit by bit. -/

namespace Sys2Proof.Machine

/-- A pair reads as 256 times its first-named register plus its second; slot 3 reads as SP (R22). -/
theorem State.pair_toNat (s : State) (pp : RegPair) : (s.pair pp).toNat = pairValue s pp := by
  cases pp with
  | bc | de | hl => exact word_toNat _ _
  | sp => rfl

/-- No two slots share a register: a write of one pair leaves the value of every other (R20, R22). -/
theorem pairValue_setPair_of_ne (s : State) {pp q : RegPair} (w : Word) (h : q ≠ pp) :
    pairValue (s.setPair pp w) q = pairValue s q := by
  cases pp <;> cases q
  case bc.bc | de.de | hl.hl | sp.sp => exact absurd rfl h
  all_goals rfl

/-- A is in no pair of `RP` (R22). -/
theorem State.setPair_a (s : State) (pp : RegPair) (w : Word) : (s.setPair pp w).regs.a = s.regs.a := by
  cases pp <;> rfl

/-- Settles O5: `State.pair_toNat` turns the read back of `State.pair_setPair` into arithmetic; the rest is the frame of
a pair write. -/
theorem pairsAreViewsOfTheirRegisters : Obligations.PairsAreViewsOfTheirRegisters := by
  intro s pp w
  have hback : pairValue (s.setPair pp w) pp = w.toNat := by
    rw [← State.pair_toNat, State.pair_setPair]
  exact ⟨s.pair_toNat pp, hback, fun _ hq => pairValue_setPair_of_ne s w hq, s.setPair_a pp w, rfl, rfl, rfl, rfl⟩

/-- The bits of the flag byte: S, Z, 0, AC, 0, P, 1, CY from bit 7 down (R28). -/
theorem packF_getLsbD (f : Flags) (k : Nat) :
    (packF f).getLsbD k = [f.cy, true, f.p, false, f.ac, false, f.z, f.s].getD k false := by
  rcases Nat.lt_or_ge k 8 with hk | hk
  · interval_cases k <;> simp only [packF, BitVec.getLsbD_append] <;> simp
  · rw [BitVec.getLsbD_of_ge _ _ hk, List.getD_eq_default _ _ hk]

theorem unpackF_packF (f : Flags) : unpackF (packF f) = f := by
  simp only [unpackF, packF_getLsbD]
  rfl

/-- A byte unpacked and packed again keeps the five flags' bits; bits 5, 3 and 1 become 0, 0, 1 (R28). -/
theorem packF_unpackF (v : Byte) : packF (unpackF v) = (v &&& 0b11010101) ||| 0b00000010 := by
  refine BitVec.eq_of_getLsbD_eq fun k hk => ?_
  rw [packF_getLsbD]
  interval_cases k <;> simp [unpackF]

/-- Settles O6: the packed bits are `packF_getLsbD` at 7 to 0, the unpacked flags are the definition's own. -/
theorem flagByteLayout : Obligations.FlagByteLayout := by
  intro f v
  refine ⟨?_, ⟨rfl, rfl, rfl, rfl, rfl⟩, unpackF_packF f, packF_unpackF v⟩
  simp only [packF_getLsbD]
  exact ⟨rfl, rfl, rfl, rfl, rfl, rfl, rfl, rfl⟩

end Sys2Proof.Machine
end

section
/-! Instructions of more than one path in one form, `completeOrFault` of the operation they perform, so that a fact
about all instructions is proved of the operation: pops, LHLD, XTHL, and the conditional instructions. -/

namespace Sys2Proof.Machine

/-- Where each of the four pops puts the popped word (R194, R195). -/
def popPut (i : Instr) (s : State) (w : Word) : State :=
  match i with
  | .popB => s.setPair .bc w
  | .popD => s.setPair .de w
  | .popH => s.setPair .hl w
  | _ => s.setPsw w

/-- The operation of a pop (R191, R194, R195). -/
def popOperation (i : Instr) (s : State) : Except Fault State :=
  (pop16 s).map fun p => popPut i p.2 p.1

theorem popOperation_eq (i : Instr) (s : State) :
    popOperation i s =
      if 0xFFFE ≤ s.sp.toNat then .error (.addressFault 0x10000)
      else .ok (popPut i (s.setSp (s.sp + 2)) (word (s.byteAt (s.sp + 1)) (s.byteAt s.sp))) := by
  rw [popOperation, pop16_eq, apply_ite (Except.map _)]
  rfl

theorem exec_pop {i : Instr} (hi : i ∈ [Instr.popB, .popD, .popH, .popPsw]) (s : State) :
    exec i s = completeOrFault i false (popOperation i s) := by
  simp only [List.mem_cons, List.not_mem_nil, or_false] at hi
  rcases hi with rfl | rfl | rfl | rfl <;>
    simp only [exec, execPopB, execPopD, execPopH, execPopPsw, popOperation] <;> cases pop16 s <;> rfl

theorem exec_lhld (w : Word) (s : State) :
    exec (.lhld w) s = completeOrFault (.lhld w) false ((memRead2 w.toNat s).map (s.setPair .hl)) := by
  rw [exec, execLhld]
  cases memRead2 w.toNat s <;> rfl

/-- XTHL: its read and its write fault together, at SP = 0xFFFF alone (R196). -/
theorem exec_xthl (s : State) :
    exec .xthl s = completeOrFault .xthl false ((memWrite2 s.sp.toNat s.hl s).map
      (State.setPair · .hl (word (s.byteAt (s.sp + 1)) (s.byteAt s.sp)))) := by
  rw [exec, execXthl, memRead2_word, memWrite2_word]
  by_cases h : s.sp.toNat = 0xFFFF
  · simp only [if_pos h]
    rfl
  · simp only [if_neg h]
    rfl

/-- An operation performed where a condition holds, and nothing elsewhere (R200). -/
def whenHolds (c : BitVec 3) (s : State) (x : Except Fault State) : Except Fault State :=
  if condHolds c s.flags then x else .ok s

theorem jumpIf_form (i : Instr) (c : BitVec 3) (w : Word) (s : State) :
    jumpIf i c w s = completeOrFault i (condHolds c s.flags) (whenHolds c s (.ok (s.setPc w))) := by
  rw [jumpIf, whenHolds]
  cases condHolds c s.flags <;> rfl

theorem callIf_form (i : Instr) (c : BitVec 3) (w : Word) (s : State) :
    callIf i c w s = completeOrFault i (condHolds c s.flags) (whenHolds c s (callTo w s)) := by
  rw [callIf, whenHolds]
  cases condHolds c s.flags <;> rfl

theorem returnIf_form (i : Instr) (c : BitVec 3) (s : State) :
    returnIf i c s = completeOrFault i (condHolds c s.flags) (whenHolds c s (returnFromStack s)) := by
  rw [returnIf, whenHolds]
  cases condHolds c s.flags <;> rfl

end Sys2Proof.Machine
end

section
/-! IE and the report of the last step are read by no instruction (R29, R36). One lemma says both: an instruction run
in a state with another IE and another report does the same, and its IE is again the other one, save after EI and DI. -/

namespace Sys2Proof.Machine

/-- The state with another IE and another report. -/
def State.withIeReport (b : Bool) (r : Option StepReport) (s : State) : State := (s.setIe b).setReport r

/-- IE after an instruction that completes, from IE before (R29, R242, R243). -/
def ieAfter (i : Instr) (b : Bool) : Bool :=
  match i with
  | .ei => true
  | .di => false
  | _ => b

theorem ieAfter_eq (i : Instr) (b : Bool) :
    ieAfter i b = if i = .ei then true else if i = .di then false else b := by
  cases i <;> rfl

/-- A change of the next state, where there is one. -/
def onNext (f : State → State) (x : Result) : Result :=
  match x with
  | .next s => .next (f s)
  | .fault e => .fault e
  | .refused e => .refused e

section
variable (b : Bool) (r : Option StepReport)

/-! ### The operations: each commutes with the change -/

theorem push16_withIeReport (w : Word) (s : State) :
    push16 w (s.withIeReport b r) = (push16 w s).map (State.withIeReport b r) := by
  rw [push16_eq, push16_eq, apply_ite (Except.map _)]
  rfl

theorem callTo_withIeReport (x : Word) (s : State) :
    callTo x (s.withIeReport b r) = (callTo x s).map (State.withIeReport b r) := by
  rw [callTo_eq, callTo_eq, apply_ite (Except.map _)]
  rfl

theorem returnFromStack_withIeReport (s : State) :
    returnFromStack (s.withIeReport b r) = (returnFromStack s).map (State.withIeReport b r) := by
  rw [returnFromStack_eq, returnFromStack_eq, apply_ite (Except.map _)]
  rfl

theorem memWrite2_withIeReport (a w : Word) (s : State) :
    memWrite2 a.toNat w (s.withIeReport b r) = (memWrite2 a.toNat w s).map (State.withIeReport b r) := by
  rw [memWrite2_word, memWrite2_word, apply_ite (Except.map _)]
  rfl

theorem memRead2_withIeReport (a : Word) (s : State) : memRead2 a.toNat (s.withIeReport b r) = memRead2 a.toNat s := by
  rw [memRead2_word, memRead2_word]
  rfl

theorem setPair_withIeReport (pp : RegPair) (w : Word) (s : State) :
    (s.withIeReport b r).setPair pp w = (s.setPair pp w).withIeReport b r := by
  cases pp <;> rfl

theorem popPut_withIeReport (i : Instr) (w : Word) (s : State) :
    popPut i (s.withIeReport b r) w = (popPut i s w).withIeReport b r := by
  simp only [popPut]
  split <;> rfl

theorem popOperation_withIeReport (i : Instr) (s : State) :
    popOperation i (s.withIeReport b r) = (popOperation i s).map (State.withIeReport b r) := by
  rw [popOperation_eq, popOperation_eq, apply_ite (Except.map _)]
  simp only [Except.map, ← popPut_withIeReport]
  rfl

theorem whenHolds_withIeReport (c : BitVec 3) (s : State) {x y : Except Fault State}
    (h : y = x.map (State.withIeReport b r)) :
    whenHolds c (s.withIeReport b r) y = (whenHolds c s x).map (State.withIeReport b r) := by
  rw [whenHolds, whenHolds, apply_ite (Except.map _), h]
  rfl

theorem aluDaa_withIeReport (s : State) : aluDaa (s.withIeReport b r) = (aluDaa s).withIeReport b r := by
  have hlow (s : State) : daaLow (s.withIeReport b r) = (daaLow s).withIeReport b r := by
    rw [daaLow, daaLow, apply_ite (State.withIeReport b r)]
    rfl
  have hhigh (s : State) : daaHigh (s.withIeReport b r) = (daaHigh s).withIeReport b r := by
    rw [daaHigh, daaHigh, apply_ite (State.withIeReport b r)]
    rfl
  rw [aluDaa, aluDaa, hlow, hhigh]

/-! ### The instructions -/

theorem completeOrFault_withIeReport (i : Instr) (k : Bool) {x y : Except Fault State}
    (h : y = x.map (State.withIeReport b r)) :
    completeOrFault i k y = onNext (State.setIe · b) (completeOrFault i k x) := by
  subst h
  cases x <;> rfl

theorem jumpIf_withIeReport (i : Instr) (c : BitVec 3) (w : Word) (s : State) :
    jumpIf i c w (s.withIeReport b r) = onNext (State.setIe · b) (jumpIf i c w s) := by
  rw [jumpIf_form, jumpIf_form]
  exact completeOrFault_withIeReport b r i _ (whenHolds_withIeReport b r c s rfl)

theorem callIf_withIeReport (i : Instr) (c : BitVec 3) (w : Word) (s : State) :
    callIf i c w (s.withIeReport b r) = onNext (State.setIe · b) (callIf i c w s) := by
  rw [callIf_form, callIf_form]
  exact completeOrFault_withIeReport b r i _ (whenHolds_withIeReport b r c s (callTo_withIeReport b r w s))

theorem returnIf_withIeReport (i : Instr) (c : BitVec 3) (s : State) :
    returnIf i c (s.withIeReport b r) = onNext (State.setIe · b) (returnIf i c s) := by
  rw [returnIf_form, returnIf_form]
  exact completeOrFault_withIeReport b r i _ (whenHolds_withIeReport b r c s (returnFromStack_withIeReport b r s))

/-- No instruction reads IE or the report; IE afterwards is that of before, save after EI and DI (R29, R36). -/
theorem exec_withIeReport (i : Instr) (s : State) :
    exec i (s.withIeReport b r) = onNext (State.setIe · (ieAfter i b)) (exec i s) := by
  cases i with
  | jnz w | jz w | jnc w | jc w | jpo w | jpe w | jp w | jm w => exact jumpIf_withIeReport b r _ _ w s
  | cnz w | cz w | cnc w | cc w | cpo w | cpe w | cp w | cm w => exact callIf_withIeReport b r _ _ w s
  | rnz | rz | rnc | rc | rpo | rpe | rp | rm => exact returnIf_withIeReport b r _ _ s
  | call w | callAlias _ w => exact completeOrFault_withIeReport b r _ _ (callTo_withIeReport b r w s)
  | rst n => exact completeOrFault_withIeReport b r _ _ (callTo_withIeReport b r (restartAddr n) s)
  | ret | retAlias => exact completeOrFault_withIeReport b r _ _ (returnFromStack_withIeReport b r s)
  | pushB | pushD | pushH | pushPsw => exact completeOrFault_withIeReport b r _ _ (push16_withIeReport b r _ s)
  | popB | popD | popH | popPsw =>
    rw [exec_pop (by decide), exec_pop (by decide)]
    exact completeOrFault_withIeReport b r _ _ (popOperation_withIeReport b r _ s)
  | shld w => exact completeOrFault_withIeReport b r _ _ (memWrite2_withIeReport b r w s.hl s)
  | lhld w =>
    rw [exec_lhld, exec_lhld, memRead2_withIeReport]
    refine completeOrFault_withIeReport b r _ _ ?_
    cases memRead2 w.toNat s <;> rfl
  | xthl =>
    rw [exec_xthl, exec_xthl]
    refine completeOrFault_withIeReport b r _ _ ((congrArg _ (memWrite2_withIeReport b r s.sp s.hl s)).trans ?_)
    cases memWrite2 s.sp.toNat s.hl s <;> rfl
  | lxi pp w => exact congrArg (complete _ false) (setPair_withIeReport b r pp w s)
  | inx pp | dcx pp => exact congrArg (complete _ false) (setPair_withIeReport b r pp _ s)
  | daa => exact congrArg (complete .daa false) (aluDaa_withIeReport b r s)
  | _ => rfl

end

/-! ### What is read and written of IE and the report -/

/-- IE after an instruction that completes: the equation of `exec_withIeReport` where IE and the report are put back as
they are. -/
theorem exec_ie {i : Instr} {s t : State} (h : exec i s = .next t) : t.ie = ieAfter i s.ie := by
  have hsame : exec i s = onNext (State.setIe · (ieAfter i s.ie)) (exec i s) := exec_withIeReport s.ie s.report i s
  rw [h] at hsame
  exact congrArg State.ie (Host.Outcome.next.inj hsame)

theorem exec_setIe (b : Bool) {i : Instr} (hei : i ≠ .ei) (hdi : i ≠ .di) (s : State) :
    exec i (s.setIe b) = onNext (State.setIe · b) (exec i s) := by
  have hkeep : ieAfter i b = b := by rw [ieAfter_eq, if_neg hei, if_neg hdi]
  have h := exec_withIeReport b s.report i s
  rwa [hkeep] at h

theorem exec_setReport (r : Option StepReport) (i : Instr) (s : State) : exec i (s.setReport r) = exec i s :=
  (exec_withIeReport s.ie r i s).trans (exec_withIeReport s.ie s.report i s).symm

/-- A step clears the report before it does anything (log entry 8). -/
theorem step_setReport (r : Option StepReport) (s : State) : step (s.setReport r) = step s := by
  have h : nextAction (s.setReport r) = nextAction s := by
    rw [nextAction_eq, nextAction_eq]
    rfl
  rw [step, step, h]

/-- An interrupt that completes leaves IE at 0; it goes to its vector where IE was 1 and changes nothing elsewhere
(R256). -/
theorem interrupt_next {v : BitVec 3} {s t : State} (h : interrupt v s = .next t) :
    t.ie = false ∧ (s.ie = true → t.pc = restartAddr v) ∧ (s.ie = false → t = s) := by
  cases hie : s.ie with
  | false =>
    rw [interrupt_disabled v hie] at h
    cases h
    exact ⟨hie, nofun, fun _ => rfl⟩
  | true =>
    rw [interrupt_enabled v hie] at h
    split at h
    · cases h
    · cases h
      exact ⟨rfl, fun _ => rfl, nofun⟩

/-- Settles O47: `exec_ie` says which instructions write IE, `exec_setIe` that no other reads it, `interrupt_next` what
a delivery does with it. -/
theorem interruptEnableIsWrittenByEiDiAndDelivery : Obligations.InterruptEnableIsWrittenByEiDiAndDelivery := by
  refine ⟨fun i s t h => ?_, fun i s t b h hei hdi => ?_, fun v s t h => interrupt_next h⟩
  · rw [exec_ie h, ieAfter_eq]
  · rw [exec_setIe b hei hdi, h]
    rfl

/-- Settles O52: `exec_setReport` for an instruction, `step_setReport` for a step. -/
theorem nothingReadsTheReport : Obligations.NothingReadsTheReport :=
  fun i s r => ⟨exec_setReport r i s, step_setReport r s⟩

end Sys2Proof.Machine
end

section
/-! What a completed instruction reports (R36, R283) and which flags it may have written (R26), by one case split: every
instruction but HLT is `completeOrFault` of an operation that keeps to the instruction's row of the flag table. -/

namespace Sys2Proof.Machine

/-- The flags outside a row of the table of R26 are as before. -/
def FlagsWithin (row : FlagRow) (f g : Flags) : Prop :=
  match row with
  | .all => True
  | .allButCarry => g.cy = f.cy
  | .carryOnly => g.z = f.z ∧ g.s = f.s ∧ g.p = f.p ∧ g.ac = f.ac
  | .none => g = f

/-- The instruction's outcome is that of an operation within its flag row, reported by whether its condition held. -/
def CompletesWithinRow (i : Instr) (s : State) (y : Result) : Prop :=
  ∃ x, y = completeOrFault i (taken i s.flags) x ∧ ∀ u, x = .ok u → FlagsWithin (flagRow i) s.flags u.flags

theorem flagsWithin_refl (row : FlagRow) (f : Flags) : FlagsWithin row f f := by
  cases row <;> simp [FlagsWithin]

theorem taken_of_condCode {i : Instr} {c : BitVec 3} (h : condCode i = some c) (f : Flags) :
    taken i f = condHolds c f := by
  simp only [taken, h]

/-! ### The operations that may fault keep the flags -/

theorem push16_flags {w : Word} {s u : State} (h : push16 w s = .ok u) : u.flags = s.flags := by
  rw [push16_eq] at h
  split at h <;> cases h
  rfl

theorem callTo_flags {w : Word} {s u : State} (h : callTo w s = .ok u) : u.flags = s.flags := by
  rw [callTo_eq] at h
  split at h <;> cases h
  rfl

theorem returnFromStack_flags {s u : State} (h : returnFromStack s = .ok u) : u.flags = s.flags := by
  rw [returnFromStack_eq] at h
  split at h <;> cases h
  rfl

theorem memWrite2_flags {a w : Word} {s u : State} (h : memWrite2 a.toNat w s = .ok u) : u.flags = s.flags := by
  rw [memWrite2_word] at h
  split at h <;> cases h
  rfl

/-- A further effect on what an operation answers, of no consequence for the flags. -/
theorem map_flags {α : Type} {x : Except Fault α} {f : α → State} {s u : State}
    (hf : ∀ a, x = .ok a → (f a).flags = s.flags) (h : x.map f = .ok u) : u.flags = s.flags := by
  cases x with
  | error e => cases h
  | ok a =>
    cases h
    exact hf a rfl

theorem popPut_flags {i : Instr} (hi : i ∈ [Instr.popB, .popD, .popH, .popPsw]) (w : Word) (s : State) :
    FlagsWithin (flagRow i) s.flags (popPut i s w).flags := by
  simp only [List.mem_cons, List.not_mem_nil, or_false] at hi
  rcases hi with rfl | rfl | rfl | rfl
  · rfl
  · rfl
  · rfl
  · trivial

theorem popOperation_flags {i : Instr} (hi : i ∈ [Instr.popB, .popD, .popH, .popPsw]) {s u : State}
    (h : popOperation i s = .ok u) : FlagsWithin (flagRow i) s.flags u.flags := by
  rw [popOperation_eq] at h
  split at h <;> cases h
  exact popPut_flags hi _ (s.setSp (s.sp + 2))

/-! ### How an instruction completes -/

theorem complete_withinRow {i : Instr} {s u : State} (hcond : taken i s.flags = false)
    (h : FlagsWithin (flagRow i) s.flags u.flags) : CompletesWithinRow i s (complete i false u) :=
  ⟨.ok u, by rw [hcond]; rfl, fun _ hu => Except.ok.inj hu ▸ h⟩

/-- An unconditional operation that may fault and writes no flag. -/
theorem completeOrFault_withinRow {i : Instr} {s : State} {x : Except Fault State} (hcond : taken i s.flags = false)
    (h : ∀ u, x = .ok u → u.flags = s.flags) : CompletesWithinRow i s (completeOrFault i false x) :=
  ⟨x, by rw [hcond], fun u hu => h u hu ▸ flagsWithin_refl _ _⟩

/-- A conditional operation that writes no flag. -/
theorem whenHolds_withinRow {i : Instr} {c : BitVec 3} {s : State} {x : Except Fault State}
    (hc : condCode i = some c) (h : ∀ u, x = .ok u → u.flags = s.flags) :
    CompletesWithinRow i s (completeOrFault i (condHolds c s.flags) (whenHolds c s x)) := by
  refine ⟨whenHolds c s x, by rw [taken_of_condCode hc], fun u hu => ?_⟩
  have hkeep : u.flags = s.flags := by
    rw [whenHolds] at hu
    split at hu
    · exact h u hu
    · cases hu
      rfl
  exact hkeep ▸ flagsWithin_refl _ _

theorem jumpIf_withinRow {i : Instr} {c : BitVec 3} (hc : condCode i = some c) (w : Word) (s : State) :
    CompletesWithinRow i s (jumpIf i c w s) := by
  rw [jumpIf_form]
  exact whenHolds_withinRow hc fun _ hu => by cases hu; rfl

theorem callIf_withinRow {i : Instr} {c : BitVec 3} (hc : condCode i = some c) (w : Word) (s : State) :
    CompletesWithinRow i s (callIf i c w s) := by
  rw [callIf_form]
  exact whenHolds_withinRow hc fun _ => callTo_flags

theorem returnIf_withinRow {i : Instr} {c : BitVec 3} (hc : condCode i = some c) (s : State) :
    CompletesWithinRow i s (returnIf i c s) := by
  rw [returnIf_form]
  exact whenHolds_withinRow hc fun _ => returnFromStack_flags

/-- Every instruction but HLT, by the row of the flag table and the way it completes. -/
theorem exec_withinRow {i : Instr} (hi : i ≠ .hlt) (s : State) : CompletesWithinRow i s (exec i s) := by
  cases i with
  | hlt => exact absurd rfl hi
  | jnz w | jz w | jnc w | jc w | jpo w | jpe w | jp w | jm w => exact jumpIf_withinRow rfl w s
  | cnz w | cz w | cnc w | cc w | cpo w | cpe w | cp w | cm w => exact callIf_withinRow rfl w s
  | rnz | rz | rnc | rc | rpo | rpe | rp | rm => exact returnIf_withinRow rfl s
  | call _ | callAlias _ _ | rst _ => exact completeOrFault_withinRow rfl fun _ => callTo_flags
  | ret | retAlias => exact completeOrFault_withinRow rfl fun _ => returnFromStack_flags
  | pushB | pushD | pushH | pushPsw => exact completeOrFault_withinRow rfl fun _ => push16_flags
  | popB | popD | popH | popPsw => exact ⟨_, exec_pop (by decide) s, fun _ => popOperation_flags (by decide)⟩
  | shld w => exact completeOrFault_withinRow rfl fun _ => memWrite2_flags
  | lhld w =>
    rw [exec_lhld]
    exact completeOrFault_withinRow rfl fun _ => map_flags fun _ _ => rfl
  | xthl =>
    rw [exec_xthl]
    exact completeOrFault_withinRow rfl fun _ => map_flags fun _ => memWrite2_flags
  | lxi pp _ | inx pp | dcx pp => exact complete_withinRow rfl (State.setPair_flags s pp _)
  | rlc | rrc | ral | rar | stc | cmc | dad _ => exact complete_withinRow rfl ⟨rfl, rfl, rfl, rfl⟩
  | inrR _ | inrM | dcrR _ | dcrM => exact complete_withinRow rfl rfl
  | addR _ | addM | adi _ | adcR _ | adcM | aci _ | subR _ | subM | sui _ | sbbR _ | sbbM | sbi _ | cmpR _ | cmpM
  | cpi _ | anaR _ | anaM | ani _ | xraR _ | xraM | xri _ | oraR _ | oraM | ori _ | daa =>
    exact complete_withinRow rfl trivial
  | _ => exact complete_withinRow rfl rfl

/-- What a completed instruction other than HLT leaves: an operation's state within the flag row, with the report. -/
theorem exec_next {i : Instr} (hi : i ≠ .hlt) {s t : State} (h : exec i s = .next t) :
    ∃ u : State, FlagsWithin (flagRow i) s.flags u.flags ∧
      t = u.setReport (some { cycles := tstates i (taken i s.flags), halt := false }) := by
  obtain ⟨x, hx, hflags⟩ := exec_withinRow hi s
  obtain ⟨u, hu, ht⟩ := completeOrFault_next (hx.symm.trans h)
  exact ⟨u, hflags u hu, ht⟩

/-- Settles O51: HLT by its own outputs, every other instruction by `exec_next`. -/
theorem completedInstructionsReportTheirCount : Obligations.CompletedInstructionsReportTheirCount := by
  intro i s t h
  by_cases hi : i = .hlt
  · subst hi
    cases h
    rfl
  · obtain ⟨u, -, rfl⟩ := exec_next hi h
    rw [State.setReport_report, decide_eq_false hi]

/-- Settles O54: HLT keeps every flag, every other instruction keeps to its row by `exec_next`. -/
theorem onlyTheNamedFlagsAreWritten : Obligations.OnlyTheNamedFlagsAreWritten := by
  intro i s t h
  have hrow : FlagsWithin (flagRow i) s.flags t.flags := by
    by_cases hi : i = .hlt
    · subst hi
      cases h
      rfl
    · obtain ⟨u, hu, rfl⟩ := exec_next hi h
      exact hu
  exact hrow

end Sys2Proof.Machine
end

section
/-! Memory accesses (R51, R52, R55): every integer address is a word or faults, and what a list of stores leaves in
memory. -/

namespace Sys2Proof.Machine

/-- An integer of the address space is an address. -/
theorem exists_word_eq {a : Int} (h : 0 ≤ a ∧ a ≤ 0xFFFF) : ∃ x : Word, a = x.toNat := by
  refine ⟨BitVec.ofNat 16 a.toNat, ?_⟩
  rw [BitVec.toNat_ofNat, Nat.mod_eq_of_lt (by omega)]
  omega

theorem memRead1_outside {a : Int} (h : ¬ (0 ≤ a ∧ a ≤ 0xFFFF)) (s : State) :
    memRead1 a s = .error (.addressFault a) := by
  rw [memRead1, chk16_eq, if_neg h]

theorem memWrite1_outside {a : Int} (h : ¬ (0 ≤ a ∧ a ≤ 0xFFFF)) (v : Byte) (s : State) :
    memWrite1 a v s = .error (.addressFault a) := by
  rw [memWrite1, chk16_eq, if_neg h]

/-- A write of a byte is not seen by a read at any other integer address, inside the address space or not (R51). -/
theorem memRead1_setByte_of_ne (s : State) {x : Word} {b : Int} (v : Byte) (h : b ≠ x.toNat) :
    memRead1 b (s.setByte x v) = memRead1 b s := by
  by_cases hb : 0 ≤ b ∧ b ≤ 0xFFFF
  · obtain ⟨y, rfl⟩ := exists_word_eq hb
    have hxy : x ≠ y := by
      rintro rfl
      exact h rfl
    rw [memRead1_word, memRead1_word, State.byteAt_setByte, if_neg hxy]
  · rw [memRead1_outside hb, memRead1_outside hb]

/-- Settles O7: an address of the space is a word, where a write is `State.setByte`; `chk16_eq` answers the fault
elsewhere. -/
theorem memoryReadsBackTheLastWrite : Obligations.MemoryReadsBackTheLastWrite := by
  refine fun s a v => ⟨fun ha => ?_, fun ha => ⟨memWrite1_outside ha v s, memRead1_outside ha s⟩⟩
  obtain ⟨x, rfl⟩ := exists_word_eq ha
  have hback : memRead1 x.toNat (s.setByte x v) = .ok v := by
    rw [memRead1_word, State.byteAt_setByte, if_pos rfl]
  exact ⟨_, memWrite1_word x v s, hback, fun _ hb => memRead1_setByte_of_ne s v hb, fun _ _ => rfl, rfl, rfl, rfl,
    rfl, rfl, rfl, rfl⟩

/-! ### Lists of stores -/

/-- The bytes of a list stored one after the other, each at its address. -/
def State.setBytes (s : State) (l : List (Word × Byte)) : State := l.foldl (fun s x => s.setByte x.1 x.2) s

/-- A byte at no address of the list reads as before (R55). -/
theorem State.byteAt_setBytes_of_notMem {l : List (Word × Byte)} {a : Word} (s : State) (h : a ∉ l.map (·.1)) :
    (s.setBytes l).byteAt a = s.byteAt a := by
  induction l generalizing s with
  | nil => rfl
  | cons x rest ih =>
    rw [List.map_cons, List.mem_cons, not_or] at h
    obtain ⟨hx, hrest⟩ := h
    exact (ih (s.setByte x.1 x.2) hrest).trans (by rw [State.byteAt_setByte, if_neg (Ne.symm hx)])

/-- Stores to different addresses are each read back (R51). -/
theorem State.byteAt_setBytes_of_mem {l : List (Word × Byte)} {x : Word × Byte} (s : State)
    (hl : (l.map (·.1)).Nodup) (hx : x ∈ l) : (s.setBytes l).byteAt x.1 = x.2 := by
  induction l generalizing s with
  | nil => cases hx
  | cons y rest ih =>
    rw [List.map_cons, List.nodup_cons] at hl
    obtain ⟨hy, hrest⟩ := hl
    rcases List.mem_cons.1 hx with rfl | hx
    · exact (State.byteAt_setBytes_of_notMem _ hy).trans (by rw [State.byteAt_setByte, if_pos rfl])
    · exact ih _ hrest hx

/-- The two bytes of a word at an address, low byte first (R52). -/
def wordBytes (a w : Word) : List (Word × Byte) := [(a, lo8 w), (a + 1, hi8 w)]

theorem nodup_succ (a : Word) : [a, a + 1].Nodup := by
  simp

/-- A word write, where it does not fault, stores the two bytes of the word (R52). -/
theorem memWrite2_eq_setBytes {a : Word} (h : a.toNat ≠ 0xFFFF) (w : Word) (s : State) :
    memWrite2 a.toNat w s = .ok (s.setBytes (wordBytes a w)) := by
  rw [memWrite2_word, if_neg h]
  rfl

/-- Settles O8: a word write is the two stores of `wordBytes`, and the word is put together again by
`word_hi8_lo8`. -/
theorem wordAccessesAreLittleEndian : Obligations.WordAccessesAreLittleEndian := by
  intro s a w
  refine ⟨fun ha => ?_, fun ha => ⟨by rw [memWrite2_word, if_pos ha], by rw [memRead2_word, if_pos ha]⟩⟩
  have hlo : (s.setBytes (wordBytes a w)).byteAt a = lo8 w :=
    State.byteAt_setBytes_of_mem (x := (a, lo8 w)) s (nodup_succ a) (by simp [wordBytes])
  have hhi : (s.setBytes (wordBytes a w)).byteAt (a + 1) = hi8 w :=
    State.byteAt_setBytes_of_mem (x := (a + 1, hi8 w)) s (nodup_succ a) (by simp [wordBytes])
  refine ⟨_, memWrite2_eq_setBytes ha.ne w s, ?_, ?_, fun b hb => State.byteAt_setBytes_of_notMem s hb, ?_⟩
  · rw [hlo, lo8_toNat]
  · rw [hhi, hi8_toNat]
  · rw [memRead2_word, if_neg ha.ne, hlo, hhi, word_hi8_lo8]

end Sys2Proof.Machine
end

section
/-! What an instruction that completes does outside the registers (R55, R57, R60): memory is that of before with the
bytes of `storedData` stored, and only IN and OUT touch the ports. One case split over the instructions says it all. -/

namespace Sys2Proof.Machine

/-- Memory is that of before with the listed bytes stored; the ports and the host's actions are as before. -/
def StoresOnly (l : List (Word × Byte)) (s t : State) : Prop :=
  t.mem = (s.setBytes l).mem ∧ t.portEvents = s.portEvents ∧ t.portAnswers = s.portAnswers ∧
    t.hostActions = s.hostActions

/-- The state of a completed instruction, where there is one, comes of the listed stores. -/
def NextStoresOnly (l : List (Word × Byte)) (s : State) (y : Result) : Prop := ∀ t, y = .next t → StoresOnly l s t

theorem storesOnly_refl (s : State) : StoresOnly [] s s := ⟨rfl, rfl, rfl, rfl⟩

/-- A change of the registers alone after the stores. -/
theorem StoresOnly.trans {l : List (Word × Byte)} {s t u : State} (hst : StoresOnly l s t) (htu : StoresOnly [] t u) :
    StoresOnly l s u := by
  obtain ⟨hm, he, ha, hh⟩ := hst
  obtain ⟨hm', he', ha', hh'⟩ := htu
  exact ⟨hm'.trans hm, he'.trans he, ha'.trans ha, hh'.trans hh⟩

/-! ### The operations -/

theorem setPair_storesOnly (s : State) (pp : RegPair) (w : Word) : StoresOnly [] s (s.setPair pp w) :=
  ⟨s.setPair_mem pp w, s.setPair_portEvents pp w, s.setPair_portAnswers pp w, s.setPair_hostActions pp w⟩

theorem aluDaa_storesOnly (s : State) : StoresOnly [] s (aluDaa s) := by
  have hlow (s : State) : StoresOnly [] s (daaLow s) := by
    rw [daaLow]
    split <;> exact storesOnly_refl s
  have hhigh (s : State) : StoresOnly [] s (daaHigh s) := by
    rw [daaHigh]
    split <;> exact storesOnly_refl s
  exact (hlow s).trans (hhigh (daaLow s))

/-- The two bytes a push of a word stores (R190). -/
def pushedBytes (w : Word) (s : State) : List (Word × Byte) := [(s.sp - 2, lo8 w), (s.sp - 1, hi8 w)]

theorem push16_storesOnly {w : Word} {s u : State} (h : push16 w s = .ok u) :
    StoresOnly (pushedBytes w s) s u := by
  rw [push16_eq] at h
  split at h <;> cases h
  exact ⟨rfl, rfl, rfl, rfl⟩

theorem callTo_storesOnly {w : Word} {s u : State} (h : callTo w s = .ok u) :
    StoresOnly (pushedBytes s.pc s) s u := by
  rw [callTo_eq] at h
  split at h <;> cases h
  exact ⟨rfl, rfl, rfl, rfl⟩

theorem returnFromStack_storesOnly {s u : State} (h : returnFromStack s = .ok u) : StoresOnly [] s u := by
  rw [returnFromStack_eq] at h
  split at h <;> cases h
  exact storesOnly_refl s

theorem popPut_storesOnly (i : Instr) (s : State) (w : Word) : StoresOnly [] s (popPut i s w) := by
  rw [popPut.eq_def]
  split <;> exact storesOnly_refl s

theorem popOperation_storesOnly {i : Instr} {s u : State} (h : popOperation i s = .ok u) : StoresOnly [] s u := by
  rw [popOperation_eq] at h
  split at h <;> cases h
  exact popPut_storesOnly i (s.setSp (s.sp + 2)) _

theorem memWrite2_storesOnly {a w : Word} {s u : State} (h : memWrite2 a.toNat w s = .ok u) :
    StoresOnly (wordBytes a w) s u := by
  rw [memWrite2_word] at h
  split at h <;> cases h
  exact ⟨rfl, rfl, rfl, rfl⟩

/-- SHLD and XTHL write L below H (R109, R196). -/
theorem wordBytes_hl (a : Word) (s : State) : wordBytes a s.hl = [(a, s.regs.l), (a + 1, s.regs.h)] := by
  simp only [wordBytes, State.hl, State.pair, lo8_word, hi8_word]

theorem memWrite2_hl_storesOnly {a : Word} {s u : State} (h : memWrite2 a.toNat s.hl s = .ok u) :
    StoresOnly [(a, s.regs.l), (a + 1, s.regs.h)] s u :=
  wordBytes_hl a s ▸ memWrite2_storesOnly h

/-! ### How an instruction completes -/

section
variable {l : List (Word × Byte)} {s : State}

theorem complete_storesOnly {i : Instr} {k : Bool} {u : State} (h : StoresOnly l s u) :
    NextStoresOnly l s (complete i k u) := by
  intro t ht
  cases complete_next ht
  exact h

theorem completeOrFault_storesOnly {i : Instr} {k : Bool} {x : Except Fault State}
    (h : ∀ u, x = .ok u → StoresOnly l s u) : NextStoresOnly l s (completeOrFault i k x) := by
  intro t ht
  obtain ⟨u, hu, rfl⟩ := completeOrFault_next ht
  exact h u hu

/-- An operation that may fault, followed by a change of the registers alone. -/
theorem completeOrFault_map_storesOnly {α : Type} {i : Instr} {k : Bool} {x : Except Fault α} {f : α → State}
    (h : ∀ a, x = .ok a → StoresOnly l s (f a)) : NextStoresOnly l s (completeOrFault i k (x.map f)) := by
  refine completeOrFault_storesOnly fun u hu => ?_
  cases x with
  | error e => cases hu
  | ok a =>
    cases hu
    exact h a rfl

end

theorem jumpIf_storesOnly (i : Instr) (c : BitVec 3) (w : Word) (s : State) : NextStoresOnly [] s (jumpIf i c w s) := by
  rw [jumpIf]
  split <;> exact complete_storesOnly (storesOnly_refl s)

theorem returnIf_storesOnly (i : Instr) (c : BitVec 3) (s : State) : NextStoresOnly [] s (returnIf i c s) := by
  rw [returnIf]
  split
  · exact completeOrFault_storesOnly fun _ => returnFromStack_storesOnly
  · exact complete_storesOnly (storesOnly_refl s)

/-- A conditional call stores PC where its condition holds, and nothing elsewhere (R213 to R220). -/
theorem callIf_storesOnly (i : Instr) (c : BitVec 3) (w : Word) (s : State) :
    NextStoresOnly (if condHolds c s.flags then pushedBytes s.pc s else []) s (callIf i c w s) := by
  rw [callIf]
  by_cases h : condHolds c s.flags = true
  · rw [if_pos h, if_pos h]
    exact completeOrFault_storesOnly fun _ => callTo_storesOnly
  · rw [if_neg h, if_neg h]
    exact complete_storesOnly (storesOnly_refl s)

/-- Every instruction but IN and OUT stores the bytes of `storedData` and reaches no port (R55, R57). -/
theorem exec_storesOnly {i : Instr} (hin : ∀ n, i ≠ .inp n) (hout : ∀ n, i ≠ .out n) (s : State) :
    NextStoresOnly (storedData i s) s (exec i s) := by
  cases i with
  | inp n => exact absurd rfl (hin n)
  | out n => exact absurd rfl (hout n)
  | jnz w | jz w | jnc w | jc w | jpo w | jpe w | jp w | jm w => exact jumpIf_storesOnly _ _ w s
  | cnz w | cz w | cnc w | cc w | cpo w | cpe w | cp w | cm w => exact callIf_storesOnly _ _ w s
  | rnz | rz | rnc | rc | rpo | rpe | rp | rm => exact returnIf_storesOnly _ _ s
  | call _ | callAlias _ _ | rst _ => exact completeOrFault_storesOnly fun _ => callTo_storesOnly
  | ret | retAlias => exact completeOrFault_storesOnly fun _ => returnFromStack_storesOnly
  | pushB | pushD | pushH | pushPsw => exact completeOrFault_storesOnly fun _ => push16_storesOnly
  | popB | popD | popH | popPsw =>
    rw [exec_pop (by decide)]
    exact completeOrFault_storesOnly fun _ => popOperation_storesOnly
  | shld w => exact completeOrFault_storesOnly fun _ => memWrite2_hl_storesOnly
  | lhld w =>
    rw [exec_lhld]
    exact completeOrFault_map_storesOnly fun v _ => setPair_storesOnly s .hl v
  | xthl =>
    rw [exec_xthl]
    exact completeOrFault_map_storesOnly fun u hu => (memWrite2_hl_storesOnly hu).trans (setPair_storesOnly u .hl _)
  | lxi pp _ | inx pp | dcx pp => exact complete_storesOnly (setPair_storesOnly s pp _)
  | daa => exact complete_storesOnly (aluDaa_storesOnly s)
  | hlt =>
    intro t ht
    cases ht
    exact storesOnly_refl s
  | movMR _ | mviM _ | inrM | dcrM | stax _ | sta _ => exact complete_storesOnly ⟨rfl, rfl, rfl, rfl⟩
  | _ => exact complete_storesOnly (storesOnly_refl s)

/-- IN and OUT add one event, and store nothing (R57). -/
theorem exec_inp_or_out {i : Instr} {n : Byte} (hi : i = .inp n ∨ i = .out n) {s t : State} (h : exec i s = .next t) :
    t.mem = (s.setBytes (storedData i s)).mem ∧ t.hostActions = s.hostActions ∧
      ∃ e, t.portEvents = s.portEvents ++ [e] := by
  rcases hi with rfl | rfl
  · cases h
    exact ⟨rfl, rfl, .read n (nextAnswer n s), rfl⟩
  · cases h
    exact ⟨rfl, rfl, .write n s.regs.a, rfl⟩

/-- Memory after any instruction that completes is that of before with the bytes of `storedData` stored; no instruction
takes from the host's actions (R55). -/
theorem exec_mem_hostActions {i : Instr} {s t : State} (h : exec i s = .next t) :
    t.mem = (s.setBytes (storedData i s)).mem ∧ t.hostActions = s.hostActions := by
  by_cases hio : ∃ n, i = .inp n ∨ i = .out n
  · obtain ⟨n, hi⟩ := hio
    obtain ⟨hm, hh, -⟩ := exec_inp_or_out hi h
    exact ⟨hm, hh⟩
  · simp only [not_exists, not_or] at hio
    obtain ⟨hm, -, -, hh⟩ := exec_storesOnly (fun n => (hio n).1) (fun n => (hio n).2) s t h
    exact ⟨hm, hh⟩

theorem exec_byteAt {i : Instr} {s t : State} (h : exec i s = .next t) (a : Word) :
    t.byteAt a = (s.setBytes (storedData i s)).byteAt a :=
  congrArg (memGet · a.toNat) (exec_mem_hostActions h).1

/-- Settles O53: memory afterwards is `exec_mem_hostActions`, and stores leave every other address alone. -/
theorem onlyTheNamedBytesAreStored : Obligations.OnlyTheNamedBytesAreStored :=
  fun _ s _ h =>
    ⟨fun a ha => (exec_byteAt h a).trans (State.byteAt_setBytes_of_notMem s ha), (exec_mem_hostActions h).2⟩

/-- Settles O55: `exec_storesOnly` for the instructions other than IN and OUT, `exec_inp_or_out` for those. -/
theorem onlyInAndOutReachAPort : Obligations.OnlyInAndOutReachAPort := by
  refine fun i s t h => ⟨fun hin hout => ?_, fun n hi => ?_⟩
  · obtain ⟨-, hevents, hanswers, -⟩ := exec_storesOnly hin hout s t h
    exact ⟨hevents, hanswers⟩
  · obtain ⟨-, -, hevent⟩ := exec_inp_or_out hi h
    exact hevent

/-! ### A store and the next fetch (R60) -/

theorem pushedBytes_nodup (w : Word) (s : State) : ((pushedBytes w s).map (·.1)).Nodup := by
  simp [pushedBytes]

/-- No instruction stores to one address twice (R55). -/
theorem storedBytes_nodup (i : Instr) (s : State) : (storedBytes i s).Nodup := by
  have hcall (b : Bool) (w : Word) : ((if b then pushedBytes w s else []).map (·.1)).Nodup := by
    cases b with
    | false => exact List.nodup_nil
    | true => exact pushedBytes_nodup w s
  cases i with
  | movMR _ | mviM _ | inrM | dcrM | stax _ | sta _ => exact List.nodup_singleton _
  | shld w => exact nodup_succ w
  | xthl => exact nodup_succ s.sp
  | pushB | pushD | pushH | pushPsw | call _ | callAlias _ _ | rst _ => exact pushedBytes_nodup _ s
  | cnz _ | cz _ | cnc _ | cc _ | cpo _ | cpe _ | cp _ | cm _ => exact hcall _ _
  | _ => exact List.nodup_nil

/-- A fetch below the end of memory reads the byte in memory and moves PC on by one (R78). -/
theorem fetchByte_setPc (t : State) {a : Word} (h : a.toNat < 0xFFFF) :
    fetchByte (t.setPc a) = .ok (t.byteAt a, (t.setPc a).setPc (a + 1)) := by
  rw [fetchByte_eq, State.setPc_pc, if_neg h.ne]
  rfl

/-- Settles O56: the addresses of `storedData` differ, so each byte is read back, and a fetch reads what is in
memory. -/
theorem aStoreIsSeenByTheNextFetch : Obligations.AStoreIsSeenByTheNextFetch := by
  intro i s t h x hx
  have hback : t.byteAt x.1 = x.2 :=
    (exec_byteAt h x.1).trans (State.byteAt_setBytes_of_mem s (storedBytes_nodup i s) hx)
  have hfetch (ha : x.1.toNat < 0xFFFF) : fetchByte (t.setPc x.1) = .ok (x.2, (t.setPc x.1).setPc (x.1 + 1)) :=
    hback ▸ fetchByte_setPc t ha
  exact ⟨hback, fun ha => ⟨_, hfetch ha, toNat_succ ha.ne⟩⟩

end Sys2Proof.Machine
end

section
/-! The opcode map (R70 to R84) in both directions: an opcode byte read back by its fields, the instruction of an
encoding, the encoding of an instruction that was read, and what `decode` answers for a list of bytes. -/

namespace Sys2Proof

open Sys2Proof.Machine

/-! ### Fields and codes read back (R21, R22, R71) -/

@[simp] theorem opClass_opByte (c : BitVec 2) (m l : BitVec 3) : opClass (opByte c m l) = c := by
  decide +revert

@[simp] theorem opMid_opByte (c : BitVec 2) (m l : BitVec 3) : opMid (opByte c m l) = m := by
  decide +revert

@[simp] theorem opLow_opByte (c : BitVec 2) (m l : BitVec 3) : opLow (opByte c m l) = l := by
  decide +revert

@[simp] theorem opClass_pairByte (c pp : BitVec 2) (low : BitVec 4) : opClass (pairByte c pp low) = c := by
  decide +revert

@[simp] theorem opPair_pairByte (c pp : BitVec 2) (low : BitVec 4) : opPair (pairByte c pp low) = pp := by
  decide +revert

@[simp] theorem opBit3_pairByte (c pp : BitVec 2) (low : BitVec 4) : opBit3 (pairByte c pp low) = low.getLsbD 3 := by
  decide +revert

@[simp] theorem opLow_pairByte (c pp : BitVec 2) (low : BitVec 4) :
    opLow (pairByte c pp low) = low.extractLsb' 0 3 := by
  decide +revert

@[simp] theorem regOfCode_code (r : Reg8) : regOfCode r.code = some r := by
  cases r <;> rfl

@[simp] theorem regOfCode_codeM : regOfCode codeM = none := rfl

@[simp] theorem pairOfCode_code (pp : RegPair) : pairOfCode pp.code = pp := by
  cases pp <;> rfl

/-! ### From the instruction to its bytes and back (R70, R79 to R84) -/

/-- The opcode and the operand bytes of an instruction name it, whatever bytes follow. -/
theorem instrOf_opcode {i : Instr} (rest : List Byte) (h : i.wf = true) :
    instrOf i.opcode ((i.operandBytes ++ rest).getD 0 0) ((i.operandBytes ++ rest).getD 1 0) = i := by
  cases i with
  -- rows of one class, their fields filled in from codes (R79 to R82)
  | inrR | dcrR | mviR | lxi | inx | dad | dcx => simp [Instr.opcode, Instr.operandBytes, instrOf, instrOfClass0]
  | movRR | movRM | movMR => simp [Instr.opcode, instrOf, instrOfClass1]
  | addR | addM | adcR | adcM | subR | subM | sbbR | sbbM | anaR | anaM | xraR | xraM | oraR | oraM | cmpR | cmpM =>
    simp [Instr.opcode, instrOf, instrOfClass2]
  | rnz | rz | rnc | rc | rpo | rpe | rp | rm | jnz | jz | jnc | jc | jpo | jpe | jp | jm | cnz | cz | cnc | cc | cpo | cpe
  | cp | cm | adi | aci | sui | sbi | ani | xri | ori | cpi | rst =>
    simp [Instr.opcode, Instr.operandBytes, instrOf, instrOfClass3]
  -- opcodes written out, with operand bytes
  | mviM | shld | sta | lhld | lda =>
    simp [Instr.opcode, Instr.operandBytes, instrOf, instrOfClass0, opClass, opMid, opLow, regOfCode]
  | call | jmp | jmpAlias | out | inp =>
    simp [Instr.opcode, Instr.operandBytes, instrOf, instrOfClass3, opClass, opMid, opLow]
  -- the aliases, whose free bits leave one value out (R84)
  | nopAlias x =>
    have hx : x ≠ 0#3 := by simpa [Instr.wf] using h
    simp [Instr.opcode, instrOf, instrOfClass0, hx]
  | callAlias x w =>
    have hvalues : ∀ x : BitVec 2, (x != 0) = true → x = 1 ∨ x = 2 ∨ x = 3 := by decide
    rcases hvalues x h with rfl | rfl | rfl <;>
      simp [Instr.opcode, Instr.operandBytes, pairByte, instrOf, instrOfClass3, opClass, opMid, opLow]
  | stax p | ldax p => cases p <;> rfl
  -- opcodes written out, with no operand
  | _ => rfl

/-- The length of the encoding is the one its opcode announces (R70). -/
theorem opLength_opcode {i : Instr} (h : i.wf = true) : opLength i.opcode = i.operandBytes.length + 1 := by
  have hsize : i.size = i.operandBytes.length + 1 := by cases i <;> rfl
  rw [← hsize, ← size_instrOf, instrOf_opcode [] h]

/-- Every entry of the opcode map is an instruction, under its own opcode and no other (R83, R84). -/
theorem wf_opcode_instrOf (op b1 b2 : Byte) : (instrOf op b1 b2).wf = true ∧ (instrOf op b1 b2).opcode = op := by
  obtain ⟨n, hn, rfl⟩ := Byte.exists_lit op
  interval_cases n <;> exact ⟨rfl, rfl⟩

/-- An instruction keeps each operand byte it was read with (R76, R77). -/
theorem operandBytes_instrOf (op b1 b2 : Byte) :
    (instrOf op b1 b2).operandBytes = [b1, b2].take (opLength op - 1) := by
  rw [← size_instrOf op b1 b2]
  fun_cases instrOf op b1 b2
  · fun_cases instrOfClass0 op b1 b2 <;> simp [Instr.operandBytes, Instr.size]
  · fun_cases instrOfClass1 op <;> rfl
  · fun_cases instrOfClass2 op <;> rfl
  · fun_cases instrOfClass3 op b1 b2 <;> simp [Instr.operandBytes, Instr.size]

/-- Operand bytes read with 0 for a missing one are the bytes that follow, as many as there are. -/
theorem take_getD {n : Nat} {l : List Byte} (hn : n ≤ 2) (hl : n ≤ l.length) :
    [l.getD 0 0, l.getD 1 0].take n = l.take n := by
  rcases l with - | ⟨b1, - | ⟨b2, l⟩⟩ <;> interval_cases n <;> simp_all

/-! ### What decoding answers (R70, R85) -/

/-- Decoding answers the entry of the opcode map and the bytes after it, unless bytes are wanting: operand bytes a format
does not have are not looked at. -/
theorem decode_cons (op : Byte) (rest : List Byte) :
    decode (op :: rest) =
      if opLength op ≤ rest.length + 1 then
        .ok (instrOf op (rest.getD 0 0) (rest.getD 1 0), rest.drop (opLength op - 1))
      else .error (.missingOperand op) := by
  rcases opLength_cases op with h | h | h
  · simp [decode, h, instrOf_of_length_one _ _ h]
  · cases rest with
    | nil => simp [decode, h]
    | cons b1 rest => simp [decode, h, instrOf_of_length_two _ _ h]
  · rcases rest with - | ⟨b1, - | ⟨b2, rest⟩⟩ <;> simp [decode, h]

/-- Settles O1: the opcode announces the encoding's own length, and `instrOf_opcode` reads the instruction back. -/
theorem decodingAnEncodedInstructionGivesItBack : Obligations.DecodingAnEncodedInstructionGivesItBack := by
  intro i rest h
  rw [encode, List.cons_append, decode_cons, instrOf_opcode rest h, opLength_opcode h, if_pos (by simp),
    Nat.add_sub_cancel, List.drop_left]

/-- Settles O2: the instruction read is the opcode map's entry, which has the opcode and the operand bytes it was read
with. -/
theorem encodingADecodedInstructionGivesItsBytes : Obligations.EncodingADecodedInstructionGivesItsBytes := by
  intro bytes rest i h
  cases bytes with
  | nil => cases h
  | cons op tail =>
    rw [decode_cons] at h
    split at h
    · next hlen =>
      cases h
      obtain ⟨hwf, hop⟩ := wf_opcode_instrOf op (tail.getD 0 0) (tail.getD 1 0)
      have hle := opLength_cases op
      refine ⟨hwf, ?_⟩
      rw [encode, hop, operandBytes_instrOf, take_getD (by omega) (by omega), List.cons_append, List.take_append_drop]
    · cases h

/-- Settles O3: `decode_cons` says which of the two answers decoding gives, `size_instrOf` that the length is the first
byte's. -/
theorem everyFirstByteHasAnInstruction : Obligations.EveryFirstByteHasAnInstruction := by
  refine fun op rest => ⟨Instr.size_le (instrOf op 0 0), fun h => ?_, fun h => ?_⟩
  · exact ⟨_, by rw [decode_cons, if_pos h], size_instrOf op _ _⟩
  · rw [decode_cons, if_neg (Nat.not_le.2 h)]

/-- Settles O4: each word is the encoding of the instruction it stands for. -/
theorem wordsOfEachFamilyDecode : Obligations.WordsOfEachFamilyDecode := by
  have hback (i : Instr) (h : i.wf = true) : decode (encode i ++ []) = .ok (i, []) :=
    decodingAnEncodedInstructionGivesItBack i [] h
  exact ⟨hback (.movRR .a .b) rfl, hback (.mviR .b 3) rfl, hback (.lxi .hl 0x0020) rfl, hback (.addR .b) rfl,
    hback .cma rfl, hback (.dad .de) rfl, hback .pushPsw rfl, hback .xthl rfl, hback (.jnz 0x0006) rfl,
    hback (.callAlias 1 0x4000) rfl, hback (.rst 2) rfl, hback (.inp 0x10) rfl, hback .hlt rfl, hback (.nopAlias 1) rfl⟩

end Sys2Proof
end

section
/-! A step of the machine (R9, R78): the host's interrupt, or the decoded instruction with PC past it. -/

namespace Sys2Proof.Machine

/-- With an interrupt next, a step is that interrupt (R9, R256). -/
theorem step_of_interrupt {s : State} {v : BitVec 3} {l : List HostAction} (h : s.hostActions = .interrupt v :: l) :
    step s = interrupt v ((s.setHostActions l).setReport none) := by
  rw [step, nextAction_eq, h]
  rfl

/-- With no interrupt next, a step is one instruction (R9). -/
theorem step_of_no_interrupt {s : State} (h : ∀ v l, s.hostActions ≠ .interrupt v :: l) :
    step s = runInstr ((s.setHostActions s.hostActions.tail).setReport none) := by
  have hhead : s.hostActions.headD .step = .step := by
    rcases hl : s.hostActions with - | ⟨- | v, l⟩
    · rfl
    · rfl
    · exact absurd hl (h v l)
  rw [step, nextAction_eq, hhead]

/-- What is fetched is what the three bytes at PC decode to, where it ends below the end of memory (R63, R78). -/
theorem fetchInstr_of_decode {s : State} {i : Instr} {rest : List Byte}
    (h : decode [s.byteAt s.pc, s.byteAt (s.pc + 1), s.byteAt (s.pc + 2)] = .ok (i, rest)) :
    fetchInstr s =
      if 0xFFFF < s.pc.toNat + i.size then .error (.addressFault 0x10000)
      else .ok (i, s.setPc (s.pc + BitVec.ofNat 16 i.size)) := by
  have hle := opLength_cases (s.byteAt s.pc)
  rw [decode_cons, if_pos (by simp only [List.length_cons]; omega)] at h
  cases h
  rw [size_instrOf]
  exact fetchInstr_eq s

/-- Settles O48: `step_of_interrupt` and `step_of_no_interrupt` read the host's list, `fetchInstr_of_decode` the bytes at
PC. -/
theorem stepRunsTheDecodedInstruction : Obligations.StepRunsTheDecodedInstruction := by
  refine fun s => ⟨fun i rest hact hdec => ?_, fun v l => step_of_interrupt⟩
  have hfetch := fetchInstr_of_decode (s := (s.setHostActions s.hostActions.tail).setReport none) hdec
  rw [step_of_no_interrupt hact, runInstr, hfetch]
  refine ⟨fun hend => ?_, fun hend => ?_⟩
  · rw [State.setReport_pc, State.setHostActions_pc, if_neg (Nat.not_lt.2 hend)]
    rfl
  · rw [State.setReport_pc, State.setHostActions_pc, if_pos hend]

end Sys2Proof.Machine
end

section
/-! Opcode bytes as numbers: the fields of a byte at the weights of their bit positions (R71). -/

namespace Sys2Proof

theorem opByte_eq_ofNat {c : BitVec 2} {m l : BitVec 3} {n : Nat} (h : 64 * c.toNat + 8 * m.toNat + l.toNat = n) :
    opByte c m l = BitVec.ofNat 8 n := by
  subst h
  decide +revert

theorem pairByte_eq_ofNat {c pp : BitVec 2} {low : BitVec 4} {n : Nat}
    (h : 64 * c.toNat + 16 * pp.toNat + low.toNat = n) : pairByte c pp low = BitVec.ofNat 8 n := by
  subst h
  decide +revert

end Sys2Proof
end

section
/-! Data transfer (R100 to R112): a write of one register, one byte or one pair is all that the instruction's next state
differs by, and each instruction is one such write. -/

namespace Sys2Proof.Machine

/-! ### What one write leaves alone -/

/-- A write of a listed register keeps the others (R20). -/
theorem SameRegsBut.setReg {s t : State} {written : List Reg8} (h : SameRegsBut s t written) {r : Reg8}
    (hr : r ∈ written) (v : Byte) : SameRegsBut s (t.setReg r v) written := by
  intro q hq
  have hne : q ≠ r := fun e => hq (e ▸ hr)
  rw [State.reg_setReg, if_neg hne, h q hq]

theorem sameRegsBut_refl (s : State) (written : List Reg8) : SameRegsBut s s written := fun _ _ => rfl

theorem putsInReg_of_setReg {i : Instr} {s : State} {r : Reg8} {v : Byte}
    (h : exec i s = complete i false (s.setReg r v)) : PutsInReg i s r v := by
  have hback : (s.setReg r v).reg r = v := by rw [State.reg_setReg, if_pos rfl]
  have hframe := (sameRegsBut_refl s [r]).setReg (List.mem_singleton_self r) v
  exact ⟨_, h, hback, hframe, rfl, rfl, rfl, fun _ => rfl, rfl, rfl, rfl, rfl⟩

theorem putsInByte_of_setByte {i : Instr} {s : State} {x : Word} {v : Byte}
    (h : exec i s = complete i false (s.setByte x v)) : PutsInByte i s x v := by
  have hback : (s.setByte x v).byteAt x = v := by rw [State.byteAt_setByte, if_pos rfl]
  have hframe : SameMemBut s (s.setByte x v) [x] := fun a ha => by
    rw [State.byteAt_setByte, if_neg (Ne.symm (List.ne_of_not_mem_cons ha))]
  exact ⟨_, h, hback, hframe, sameRegsBut_refl s [], rfl, rfl, rfl, rfl, rfl, rfl, rfl⟩

/-- The two registers of a pair take the halves of the word, slot 3 the word itself (R22). -/
theorem putsInPair_of_setPair {i : Instr} {s : State} {pp : RegPair} {w : Word}
    (h : exec i s = complete i false (s.setPair pp w)) : PutsInPair i s pp w.toNat := by
  have hframe (hi lo : Reg8) : SameRegsBut s ((s.setReg hi (hi8 w)).setReg lo (lo8 w)) [hi, lo] :=
    ((sameRegsBut_refl s _).setReg (by simp) _).setReg (by simp) _
  refine ⟨_, h, s.setPair_pc pp w, s.setPair_flags pp w, fun a => congrArg (memGet · a.toNat) (s.setPair_mem pp w),
    ⟨s.setPair_ie pp w, s.setPair_portEvents pp w, s.setPair_portAnswers pp w, s.setPair_hostActions pp w⟩, ?_⟩
  cases pp with
  | bc => exact ⟨⟨hi8_toNat w, lo8_toNat w⟩, hframe .b .c, rfl⟩
  | de => exact ⟨⟨hi8_toNat w, lo8_toNat w⟩, hframe .d .e, rfl⟩
  | hl => exact ⟨⟨hi8_toNat w, lo8_toNat w⟩, hframe .h .l, rfl⟩
  | sp => exact ⟨rfl, sameRegsBut_refl s []⟩

/-! ### The loads and stores of one byte (R100 to R104, R106, R107, R110, R111) -/

theorem encode_movRR (dst r : Reg8) :
    encode (.movRR dst r) = [BitVec.ofNat 8 (0x40 + 8 * dst.code.toNat + r.code.toNat)] :=
  congrArg ([·]) (opByte_eq_ofNat rfl)

theorem encode_movRM (dst : Reg8) : encode (.movRM dst) = [BitVec.ofNat 8 (0x46 + 8 * dst.code.toNat)] :=
  congrArg ([·]) (opByte_eq_ofNat (Nat.add_right_comm 0x40 _ 6))

theorem encode_movMR (r : Reg8) : encode (.movMR r) = [BitVec.ofNat 8 (0x70 + r.code.toNat)] :=
  congrArg ([·]) (opByte_eq_ofNat rfl)

theorem encode_mviR (r : Reg8) (n : Byte) : encode (.mviR r n) = [BitVec.ofNat 8 (0x06 + 8 * r.code.toNat), n] :=
  congrArg ([·, n]) (opByte_eq_ofNat (Nat.add_right_comm 0 _ 6))

/-- Settles O10: each load is one register write, `putsInReg_of_setReg`, of a value read in the state before. -/
theorem loadsPutTheOperandInTheRegister : Obligations.LoadsPutTheOperandInTheRegister := fun _ =>
  ⟨fun dst r => ⟨encode_movRR dst r, putsInReg_of_setReg rfl⟩,
    fun dst => ⟨encode_movRM dst, putsInReg_of_setReg rfl⟩,
    fun r n => ⟨encode_mviR r n, putsInReg_of_setReg rfl⟩,
    fun _ => ⟨rfl, putsInReg_of_setReg rfl⟩,
    ⟨rfl, putsInReg_of_setReg rfl⟩,
    ⟨rfl, putsInReg_of_setReg rfl⟩⟩

/-- Settles O11: each store is one memory write, `putsInByte_of_setByte`, at an address computed in the state before. -/
theorem storesPutTheOperandInMemory : Obligations.StoresPutTheOperandInMemory := fun _ =>
  ⟨fun r => ⟨encode_movMR r, putsInByte_of_setByte rfl⟩,
    fun _ => ⟨rfl, putsInByte_of_setByte rfl⟩,
    fun _ => ⟨rfl, putsInByte_of_setByte rfl⟩,
    ⟨rfl, putsInByte_of_setByte rfl⟩,
    ⟨rfl, putsInByte_of_setByte rfl⟩⟩

/-! ### Words (R105, R108, R109, R112) -/

theorem encode_lxi (pp : RegPair) (w : Word) :
    encode (.lxi pp w) = [BitVec.ofNat 8 (0x01 + 16 * pp.code.toNat), lo8 w, hi8 w] :=
  congrArg ([·, lo8 w, hi8 w]) (pairByte_eq_ofNat (Nat.add_right_comm 0 _ 1))

/-- Settles O12: LXI is one pair write, `putsInPair_of_setPair`. -/
theorem lxiLoadsThePair : Obligations.LxiLoadsThePair :=
  fun _ pp w => ⟨encode_lxi pp w, putsInPair_of_setPair rfl⟩

/-- LHLD with both bytes in memory: the little-endian word to HL (R108). -/
theorem exec_lhld_complete {w : Word} (h : w.toNat ≠ 0xFFFF) (s : State) :
    exec (.lhld w) s = complete (.lhld w) false (s.setPair .hl (word (s.byteAt (w + 1)) (s.byteAt w))) := by
  rw [exec_lhld, memRead2_word, if_neg h]
  rfl

/-- Settles O13: below 0xFFFF LHLD is a write of HL, `exec_lhld_complete`; at 0xFFFF the word read faults. -/
theorem lhldLoadsHLFromMemory : Obligations.LhldLoadsHLFromMemory := by
  refine fun s w => ⟨rfl, fun hw => ?_, fun hw => ?_⟩
  · rw [← word_toNat]
    exact putsInPair_of_setPair (exec_lhld_complete hw.ne s)
  · rw [exec_lhld, memRead2_word, if_pos hw]
    rfl

/-- SHLD with both bytes in memory: L below H (R109). -/
theorem exec_shld_complete {w : Word} (h : w.toNat ≠ 0xFFFF) (s : State) :
    exec (.shld w) s = complete (.shld w) false (s.setBytes [(w, s.regs.l), (w + 1, s.regs.h)]) := by
  rw [exec, execShld, memWrite2_eq_setBytes h, wordBytes_hl]
  rfl

/-- Settles O14: below 0xFFFF SHLD is two stores to different addresses, `exec_shld_complete`; at 0xFFFF the word write
faults. -/
theorem shldStoresHLToMemory : Obligations.ShldStoresHLToMemory := by
  refine fun s w => ⟨rfl, fun hw => ?_, fun hw => ?_⟩
  · have hback (x : Word × Byte) (hx : x ∈ [(w, s.regs.l), (w + 1, s.regs.h)]) :
        (s.setBytes [(w, s.regs.l), (w + 1, s.regs.h)]).byteAt x.1 = x.2 :=
      State.byteAt_setBytes_of_mem s (nodup_succ w) hx
    exact ⟨_, exec_shld_complete hw.ne s, hback (w, s.regs.l) (by simp), hback (w + 1, s.regs.h) (by simp),
      fun _ ha => State.byteAt_setBytes_of_notMem s ha, sameRegsBut_refl s [], rfl, rfl, rfl, rfl, rfl, rfl, rfl⟩
  · rw [exec, execShld, memWrite2_word, if_pos hw]
    rfl

/-- The registers with HL and DE exchanged (R112). -/
def Regs.exchanged (g : Regs) : Regs := { g with d := g.h, e := g.l, h := g.d, l := g.e }

theorem exec_xchg (s : State) : exec .xchg s = complete .xchg false (s.setRegs s.regs.exchanged) := by
  have hregs : (s.setPair .hl (s.pair .de)).setPair .de (s.pair .hl) = s.setRegs s.regs.exchanged := by
    simp only [State.pair, State.setPair, hi8_word, lo8_word]
    rfl
  rw [exec, execXchg, hregs]

/-- Settles O15: XCHG is `Regs.exchanged`, which is its own inverse. -/
theorem xchgExchangesHLAndDE : Obligations.XchgExchangesHLAndDE := by
  intro s
  have hframe : SameRegsBut s (s.setRegs s.regs.exchanged) [.d, .e, .h, .l] := by
    intro q hq
    cases q with
    | a | b | c => rfl
    | d | e | h | l => exact absurd hq (by decide)
  exact ⟨rfl, _, exec_xchg s, rfl, rfl, rfl, rfl, hframe, rfl, rfl, rfl, fun _ => rfl, ⟨rfl, rfl, rfl, rfl⟩,
    _, exec_xchg _, sameRegsBut_refl s []⟩

end Sys2Proof.Machine
end

section
/-! The 8-bit ALU (R120 to R159): every instruction of it is at most one write of a register or of the byte at HL and
one write of the flags, so its frame is proved once, and its value and flags once per computation. -/

namespace Sys2Proof.Machine

/-! ### Opcodes of the ALU -/

/-- The opcode of an ALU instruction on a register: `10 ooo sss` (R81). -/
theorem encode_aluR {i : Instr} {r : Reg8} {op : BitVec 3} {n : Nat} (h : encode i = [opByte 0b10 op r.code])
    (hn : 0x80 + 8 * op.toNat = n) : encode i = [BitVec.ofNat 8 (n + r.code.toNat)] :=
  h.trans (congrArg ([·]) (opByte_eq_ofNat (congrArg (· + r.code.toNat) hn)))

theorem encode_inrR (r : Reg8) : encode (.inrR r) = [BitVec.ofNat 8 (0x04 + 8 * r.code.toNat)] :=
  congrArg ([·]) (opByte_eq_ofNat (Nat.add_right_comm 0 _ 4))

theorem encode_dcrR (r : Reg8) : encode (.dcrR r) = [BitVec.ofNat 8 (0x05 + 8 * r.code.toNat)] :=
  congrArg ([·]) (opByte_eq_ofNat (Nat.add_right_comm 0 _ 5))

/-! ### What a write of one register and of the flags leaves alone -/

/-- `OnlyAAndFlags` for any one destination register. -/
def OnlyRegAndFlags (s t : State) (r : Reg8) : Prop :=
  SameRegsBut s t [r] ∧ t.sp = s.sp ∧ t.pc = s.pc ∧ SameMem s t ∧ SameRest s t

theorem onlyRegAndFlags_refl (s : State) (r : Reg8) : OnlyRegAndFlags s s r :=
  ⟨sameRegsBut_refl s [r], rfl, rfl, fun _ => rfl, rfl, rfl, rfl, rfl⟩

theorem OnlyRegAndFlags.setReg_setFlags {s t : State} {r : Reg8} (h : OnlyRegAndFlags s t r) (v : Byte) (f : Flags) :
    OnlyRegAndFlags s ((t.setReg r v).setFlags f) r := by
  obtain ⟨hregs, hrest⟩ := h
  exact ⟨hregs.setReg (List.mem_singleton_self r) v, hrest⟩

/-- One write of A and of the flags. -/
theorem onlyAAndFlags_write (s : State) (v : Byte) (f : Flags) : OnlyAAndFlags s ((s.setReg .a v).setFlags f) :=
  (onlyRegAndFlags_refl s .a).setReg_setFlags v f

/-! ### Z, S and P (R27) -/

theorem onesIn_toNat (r : Byte) : onesIn r.toNat = popcount r := by
  rw [onesIn, popcount, List.countP_eq_length_filter]
  refine congrArg (fun p => ((List.range 8).filter p).length) (funext fun k => ?_)
  rw [← BitVec.testBit_toNat, Nat.testBit_eq_decide_div_mod_eq]
  rfl

/-- `zsp` gives a result the Z, S and P that R27 says, whatever the other flags are. -/
theorem zspOf_zsp (r : Byte) (f : Flags) : ZspOf r (zsp r f) :=
  ⟨zsp_z r f, zsp_s r f, by rw [onesIn_toNat, zsp_p]⟩

/-! ### The addition path (R120, R123 to R128) -/

/-- What the addition path leaves in A and in the flags. -/
theorem aluAdd_result (v : Byte) (c : Bool) (s : State) :
    (aluAdd v c s).regs.a.toNat = (s.regs.a.toNat + v.toNat + bit c) % 256 ∧
      ZspOf (aluAdd v c s).regs.a (aluAdd v c s).flags ∧
      ((aluAdd v c s).flags.cy = true ↔ 255 < s.regs.a.toNat + v.toNat + bit c) ∧
      ((aluAdd v c s).flags.ac = true ↔ 15 < s.regs.a.toNat % 16 + v.toNat % 16 + bit c) :=
  ⟨addResult_toNat _ v c, zspOf_zsp _ _, addFlags_cy _ v c _, addFlags_ac _ v c _⟩

theorem aluAdd_onlyAAndFlags {s t : State} (h : OnlyAAndFlags s t) (v : Byte) (c : Bool) :
    OnlyAAndFlags s (aluAdd v c t) :=
  OnlyRegAndFlags.setReg_setFlags h _ (addFlags t.regs.a v c t.flags)

/-- An instruction that is one pass through the addition path. -/
theorem addsToA_of_aluAdd {i : Instr} {s : State} {v : Byte} (c : Bool)
    (h : exec i s = complete i false (aluAdd v c s)) : AddsToA i s v (bit c) := by
  obtain ⟨hvalue, hzsp, hcy, hac⟩ := aluAdd_result v c s
  exact ⟨_, h, hvalue, hzsp, hcy, hac, aluAdd_onlyAAndFlags (onlyRegAndFlags_refl s .a) v c⟩

/-- Settles O16: each addition is one pass through the addition path, `addsToA_of_aluAdd`. -/
theorem additionsFollowTheAddPath : Obligations.AdditionsFollowTheAddPath := fun s =>
  ⟨fun _ => ⟨encode_aluR (op := 0) rfl rfl, addsToA_of_aluAdd false rfl⟩,
    ⟨rfl, addsToA_of_aluAdd false rfl⟩,
    fun _ => ⟨rfl, addsToA_of_aluAdd false rfl⟩,
    fun _ => ⟨encode_aluR (op := 1) rfl rfl, addsToA_of_aluAdd s.flags.cy rfl⟩,
    ⟨rfl, addsToA_of_aluAdd s.flags.cy rfl⟩,
    fun _ => ⟨rfl, addsToA_of_aluAdd s.flags.cy rfl⟩⟩

/-! ### The subtraction path (R121, R129 to R134, R144 to R146) -/

theorem borrowsOf_subFlags (a v : Byte) (b : Bool) (f : Flags) :
    BorrowsOf a.toNat v.toNat (bit b) (subFlags a v b f) :=
  ⟨subFlags_cy a v b f, subFlags_ac a v b f⟩

/-- An instruction that is one pass through the subtraction path with A written. -/
theorem subsFromA_of_aluSub {i : Instr} {s : State} {v : Byte} (b : Bool)
    (h : exec i s = complete i false (aluSub v b s)) : SubsFromA i s v (bit b) :=
  ⟨_, h, subResult_toNat s.regs.a v b, zspOf_zsp _ _, borrowsOf_subFlags s.regs.a v b s.flags,
    onlyAAndFlags_write s _ (subFlags s.regs.a v b s.flags)⟩

/-- Settles O17: each subtraction is one pass through the subtraction path, `subsFromA_of_aluSub`. -/
theorem subtractionsFollowTheSubPath : Obligations.SubtractionsFollowTheSubPath := fun s =>
  ⟨fun _ => ⟨encode_aluR (op := 2) rfl rfl, subsFromA_of_aluSub false rfl⟩,
    ⟨rfl, subsFromA_of_aluSub false rfl⟩,
    fun _ => ⟨rfl, subsFromA_of_aluSub false rfl⟩,
    fun _ => ⟨encode_aluR (op := 3) rfl rfl, subsFromA_of_aluSub s.flags.cy rfl⟩,
    ⟨rfl, subsFromA_of_aluSub s.flags.cy rfl⟩,
    fun _ => ⟨rfl, subsFromA_of_aluSub s.flags.cy rfl⟩⟩

/-- The result of a subtraction without a borrow-in. -/
theorem subResult_false_toNat (a v : Byte) : (subResult a v false).toNat = (a.toNat + 256 - v.toNat) % 256 := by
  have := v.isLt
  rw [subResult_toNat, bit_false]
  omega

/-- A compare sets Z exactly on equal operands (R144). -/
theorem subFlags_false_z (a v : Byte) (f : Flags) : (subFlags a v false f).z = true ↔ a = v := by
  have := a.isLt
  have := v.isLt
  rw [subFlags, zsp_z, subResult_false_toNat, ← BitVec.toNat_inj]
  omega

/-- An instruction that is one pass through the subtraction path with the flags alone written. -/
theorem comparesWithA_of_aluCmp {i : Instr} {s : State} {v : Byte}
    (h : exec i s = complete i false (aluCmp v s)) : ComparesWithA i s v :=
  ⟨_, h, ⟨_, subResult_false_toNat s.regs.a v, zspOf_zsp _ _⟩, borrowsOf_subFlags s.regs.a v false s.flags, rfl,
    onlyRegAndFlags_refl s .a⟩

/-- Settles O18: each compare is `comparesWithA_of_aluCmp`; Z and CY of CPI are those of the subtraction. -/
theorem comparesWriteOnlyTheFlags : Obligations.ComparesWriteOnlyTheFlags := fun s =>
  ⟨fun _ => ⟨encode_aluR (op := 7) rfl rfl, comparesWithA_of_aluCmp rfl⟩,
    ⟨rfl, comparesWithA_of_aluCmp rfl⟩,
    fun n => ⟨rfl, comparesWithA_of_aluCmp rfl, _, rfl, subFlags_false_z s.regs.a n s.flags,
      subFlags_cy s.regs.a n false s.flags⟩⟩

/-! ### Logic (R122, R135 to R143) -/

/-- An instruction that is one pass through the logic path. -/
theorem setsAByLogic_of_aluLogic {i : Instr} {s : State} {r : Byte}
    (h : exec i s = complete i false (aluLogic r s)) : SetsAByLogic i s r :=
  ⟨_, h, rfl, zspOf_zsp _ _, rfl, rfl, onlyAAndFlags_write s r (logicFlags r s.flags)⟩

/-- Settles O19: each logical instruction is one pass through the logic path, `setsAByLogic_of_aluLogic`. -/
theorem logicClearsCarries : Obligations.LogicClearsCarries := fun _ =>
  ⟨fun _ => ⟨encode_aluR (op := 4) rfl rfl, setsAByLogic_of_aluLogic rfl⟩,
    ⟨rfl, setsAByLogic_of_aluLogic rfl⟩,
    fun _ => ⟨rfl, setsAByLogic_of_aluLogic rfl⟩,
    fun _ => ⟨encode_aluR (op := 5) rfl rfl, setsAByLogic_of_aluLogic rfl⟩,
    ⟨rfl, setsAByLogic_of_aluLogic rfl⟩,
    fun _ => ⟨rfl, setsAByLogic_of_aluLogic rfl⟩,
    fun _ => ⟨encode_aluR (op := 6) rfl rfl, setsAByLogic_of_aluLogic rfl⟩,
    ⟨rfl, setsAByLogic_of_aluLogic rfl⟩,
    fun _ => ⟨rfl, setsAByLogic_of_aluLogic rfl⟩⟩

/-! ### Increment and decrement (R147 to R150) -/

/-- The byte y and the flags g are what INR or DCR makes of x and f: y is x + n modulo 256, AC is set exactly where the
low nibble of x is the one that carries or borrows, and CY is kept. -/
def StepsTo (x y : Byte) (n nibble : Nat) (f g : Flags) : Prop :=
  y.toNat = (x.toNat + n) % 256 ∧ ZspOf y g ∧ (g.ac = true ↔ x.toNat % 16 = nibble) ∧ g.cy = f.cy

theorem incFlags_stepsTo (x : Byte) (f : Flags) : StepsTo x (x + 1) 1 15 f (incFlags x f) :=
  ⟨BitVec.toNat_add x 1, zspOf_zsp _ _, by simp [incFlags], rfl⟩

theorem decFlags_stepsTo (x : Byte) (f : Flags) : StepsTo x (x - 1) 255 0 f (decFlags x f) := by
  have hvalue : (x - 1).toNat = (x.toNat + 255) % 256 := by
    rw [BitVec.toNat_sub, Nat.add_comm x.toNat]
    rfl
  exact ⟨hvalue, zspOf_zsp _ _, by simp [decFlags], rfl⟩

/-- INR or DCR of a register: a write of the register and of the flags. -/
theorem stepsTo_setReg {i : Instr} {s : State} {r : Reg8} {y : Byte} {n nibble : Nat} {g : Flags}
    (h : exec i s = complete i false ((s.setReg r y).setFlags g)) (hy : StepsTo (s.reg r) y n nibble s.flags g) :
    ∃ t, exec i s = .next t ∧ (t.reg r).toNat = ((s.reg r).toNat + n) % 256 ∧ ZspOf (t.reg r) t.flags ∧
      (t.flags.ac = true ↔ (s.reg r).toNat % 16 = nibble) ∧ t.flags.cy = s.flags.cy ∧ OnlyRegAndFlags s t r := by
  have hback : (s.setReg r y).reg r = y := by rw [State.reg_setReg, if_pos rfl]
  obtain ⟨hvalue, hzsp, hac, hcy⟩ := hy
  rw [← hback] at hvalue hzsp
  exact ⟨_, h, hvalue, hzsp, hac, hcy, (onlyRegAndFlags_refl s r).setReg_setFlags y g⟩

/-- INR M or DCR M: a write of the byte at HL and of the flags. -/
theorem stepsTo_setByte {i : Instr} {s : State} {x : Word} {y : Byte} {n nibble : Nat} {g : Flags}
    (h : exec i s = complete i false ((s.setByte x y).setFlags g)) (hy : StepsTo (s.byteAt x) y n nibble s.flags g) :
    ∃ t, exec i s = .next t ∧ (t.byteAt x).toNat = ((s.byteAt x).toNat + n) % 256 ∧ ZspOf (t.byteAt x) t.flags ∧
      (t.flags.ac = true ↔ (s.byteAt x).toNat % 16 = nibble) ∧ t.flags.cy = s.flags.cy ∧ SameMemBut s t [x] ∧
      SameRegsBut s t [] ∧ t.sp = s.sp ∧ t.pc = s.pc ∧ SameRest s t := by
  have hback : (s.setByte x y).byteAt x = y := by rw [State.byteAt_setByte, if_pos rfl]
  have hframe : SameMemBut s (s.setByte x y) [x] := fun a ha => by
    rw [State.byteAt_setByte, if_neg (Ne.symm (List.ne_of_not_mem_cons ha))]
  obtain ⟨hvalue, hzsp, hac, hcy⟩ := hy
  rw [← hback] at hvalue hzsp
  exact ⟨_, h, hvalue, hzsp, hac, hcy, hframe, sameRegsBut_refl s [], rfl, rfl, rfl, rfl, rfl, rfl⟩

/-- Settles O20: both are `stepsTo_setReg`, with the values and flags of `incFlags` and `decFlags`. -/
theorem registerIncrementAndDecrement : Obligations.RegisterIncrementAndDecrement := fun s r =>
  ⟨encode_inrR r, encode_dcrR r, stepsTo_setReg rfl (incFlags_stepsTo (s.reg r) s.flags),
    stepsTo_setReg rfl (decFlags_stepsTo (s.reg r) s.flags)⟩

/-- Settles O21: both are `stepsTo_setByte` at HL, with the values and flags of `incFlags` and `decFlags`. -/
theorem memoryIncrementAndDecrement : Obligations.MemoryIncrementAndDecrement := fun s =>
  ⟨rfl, rfl, stepsTo_setByte rfl (incFlags_stepsTo (s.byteAt s.hl) s.flags),
    stepsTo_setByte rfl (decFlags_stepsTo (s.byteAt s.hl) s.flags)⟩

/-! ### Decimal adjust (R151) -/

theorem daaLow_of_adjust {s : State} (h : s.regs.a.toNat % 16 > 9 ∨ s.flags.ac = true) :
    daaLow s = aluAdd 0x06 false s :=
  if_pos (by simpa using h)

theorem daaLow_of_not_adjust {s : State} (h : ¬ (s.regs.a.toNat % 16 > 9 ∨ s.flags.ac = true)) : daaLow s = s :=
  if_neg (by simpa using h)

theorem daaHigh_of_adjust {s : State} (h : s.regs.a.toNat / 16 > 9 ∨ s.flags.cy = true) :
    daaHigh s = aluAdd 0x60 false s :=
  if_pos (by simpa using h)

theorem daaHigh_of_not_adjust {s : State} (h : ¬ (s.regs.a.toNat / 16 > 9 ∨ s.flags.cy = true)) : daaHigh s = s :=
  if_neg (by simpa using h)

theorem daaLow_onlyAAndFlags {s t : State} (h : OnlyAAndFlags s t) : OnlyAAndFlags s (daaLow t) := by
  unfold daaLow
  split
  · exact aluAdd_onlyAAndFlags h _ false
  · exact h

theorem daaHigh_onlyAAndFlags {s t : State} (h : OnlyAAndFlags s t) : OnlyAAndFlags s (daaHigh t) := by
  unfold daaHigh
  split
  · exact aluAdd_onlyAAndFlags h _ false
  · exact h

/-- Adding 0x60 leaves the low nibble as it is, so nothing carries out of bit 3. -/
theorem addFlags_0x60_ac (a : Byte) (f : Flags) : (addFlags a 0x60 false f).ac = false := by
  rw [Bool.eq_false_iff, Ne, addFlags_ac, bit_false, show (0x60 : Byte).toNat = 0x60 from rfl]
  omega

/-- Settles O22: a1 and f1 are A and the flags that `daaLow` leaves, and the second line is `daaHigh` of that state. -/
theorem daaIsTwoConditionalAdditions : Obligations.DaaIsTwoConditionalAdditions := by
  refine fun s => ⟨rfl, _, (daaLow s).regs.a, (daaLow s).flags, rfl, fun h => ?_, fun h => ?_, fun h => ?_, fun h => ?_,
    daaHigh_onlyAAndFlags (daaLow_onlyAAndFlags (onlyRegAndFlags_refl s .a))⟩
  · rw [daaLow_of_adjust h]
    exact aluAdd_result 0x06 false s
  · rw [daaLow_of_not_adjust h]
    exact ⟨rfl, rfl⟩
  · rw [aluDaa, daaHigh_of_adjust h]
    obtain ⟨hvalue, hzsp, hcy, -⟩ := aluAdd_result 0x60 false (daaLow s)
    exact ⟨hvalue, hzsp, hcy, addFlags_0x60_ac _ _⟩
  · rw [aluDaa, daaHigh_of_not_adjust h]
    exact ⟨rfl, rfl⟩

/-! ### The carry and the rotates (R152 to R158) -/

/-- An instruction that is a write of A and of CY. -/
theorem setsAAndCarry_of_setReg_setCarry {i : Instr} {s : State} {v : Byte} {b : Bool} {n : Nat} {c : Prop}
    (h : exec i s = complete i false ((s.setReg .a v).setCarry b)) (hv : v.toNat = n) (hb : b = true ↔ c) :
    SetsAAndCarry i s n c :=
  ⟨_, h, hv, hb, rfl, rfl, rfl, rfl, onlyAAndFlags_write s v { s.flags with cy := b }⟩

/-- Settles O23: CMA is one register write; STC and CMC are a write of CY with A written back as it was. -/
theorem complementAndCarryInstructions : Obligations.ComplementAndCarryInstructions := fun _ =>
  ⟨rfl, rfl, rfl, putsInReg_of_setReg rfl,
    setsAAndCarry_of_setReg_setCarry rfl rfl (iff_of_true rfl trivial),
    setsAAndCarry_of_setReg_setCarry rfl rfl (iff_of_eq (Bool.not_eq_true' _))⟩

theorem bit_eq_toNat (b : Bool) : bit b = b.toNat := by cases b <;> rfl

/-- Bits 6 to 0 moved up by one, with b at the bottom (R155, R157). -/
theorem shiftInLow_toNat (a : Byte) (b : Bool) :
    (a.extractLsb' 0 7 ++ BitVec.ofBool b).toNat = 2 * a.toNat % 256 + bit b := by
  have happend : (a.extractLsb' 0 7 ++ BitVec.ofBool b).toNat = a.toNat % 128 * 2 + b.toNat :=
    BitVec.toNat_concat (a.extractLsb' 0 7) b
  rw [happend, bit_eq_toNat]
  omega

/-- Bits 7 to 1 moved down by one, with b at the top (R156, R158). -/
theorem shiftInHigh_toNat (a : Byte) (b : Bool) :
    (BitVec.ofBool b ++ a.extractLsb' 1 7).toNat = a.toNat / 2 + 128 * bit b := by
  have happend : (BitVec.ofBool b ++ a.extractLsb' 1 7).toNat = b.toNat <<< 7 + (a.toNat >>> 1) % 128 :=
    BitVec.toNat_cons' (a := b) (x := a.extractLsb' 1 7)
  have := a.isLt
  rw [happend, bit_eq_toNat, Nat.shiftLeft_eq, Nat.shiftRight_eq_div_pow]
  omega

theorem getLsbD_seven (a : Byte) : a.getLsbD 7 = decide (128 ≤ a.toNat) := BitVec.msb_eq_decide a

theorem getLsbD_zero (a : Byte) : a.getLsbD 0 = decide (a.toNat % 2 = 1) := Nat.testBit_zero a.toNat

theorem bit_getLsbD_seven (a : Byte) : bit (a.getLsbD 7) = a.toNat / 128 := by
  have := a.isLt
  simp only [getLsbD_seven, bit, decide_eq_true_eq]
  split <;> omega

theorem bit_getLsbD_zero (a : Byte) : bit (a.getLsbD 0) = a.toNat % 2 := by
  simp only [getLsbD_zero, bit, decide_eq_true_eq]
  split <;> omega

/-- RLC and RAL: left by one, bit 7 to CY. -/
theorem setsAAndCarry_of_rotateLeft {i : Instr} {s : State} {n : Nat} (b : Bool) (hb : bit b = n)
    (h : exec i s = complete i false (rotateLeft b s)) :
    SetsAAndCarry i s (2 * s.regs.a.toNat % 256 + n) (128 ≤ s.regs.a.toNat) :=
  setsAAndCarry_of_setReg_setCarry h (hb ▸ shiftInLow_toNat s.regs.a b) (by rw [getLsbD_seven, decide_eq_true_iff])

/-- RRC and RAR: right by one, bit 0 to CY. -/
theorem setsAAndCarry_of_rotateRight {i : Instr} {s : State} {n : Nat} (b : Bool) (hb : bit b = n)
    (h : exec i s = complete i false (rotateRight b s)) :
    SetsAAndCarry i s (s.regs.a.toNat / 2 + 128 * n) (s.regs.a.toNat % 2 = 1) :=
  setsAAndCarry_of_setReg_setCarry h (hb ▸ shiftInHigh_toNat s.regs.a b) (by rw [getLsbD_zero, decide_eq_true_iff])

/-- Settles O24: each rotate is one of the two directions, with the bit that R155 to R158 shift in. -/
theorem rotatesMoveOneBit : Obligations.RotatesMoveOneBit := fun s =>
  ⟨rfl, rfl, rfl, rfl, setsAAndCarry_of_rotateLeft (s.regs.a.getLsbD 7) (bit_getLsbD_seven s.regs.a) rfl,
    setsAAndCarry_of_rotateRight (s.regs.a.getLsbD 0) (bit_getLsbD_zero s.regs.a) rfl,
    setsAAndCarry_of_rotateLeft s.flags.cy rfl rfl,
    setsAAndCarry_of_rotateRight s.flags.cy rfl rfl⟩

/-! ### Identities (R159) -/

theorem subResult_addResult (a v : Byte) (c : Bool) : subResult (addResult a v c) v c = a := by
  have := a.isLt
  have := v.isLt
  have := bit_le_one c
  apply BitVec.eq_of_toNat_eq
  rw [subResult_toNat, addResult_toNat]
  omega

theorem subResult_self (a : Byte) : subResult a a false = 0 := by
  apply BitVec.eq_of_toNat_eq
  rw [subResult_false_toNat, Nat.add_sub_cancel_left]
  rfl

/-- The flags of the result 0 with no carry and no borrow (R159). -/
def Flags.ofZero : Flags := { z := true, s := false, p := true, cy := false, ac := false }

theorem subFlags_self (a : Byte) (f : Flags) : subFlags a a false f = Flags.ofZero := by
  simp only [subFlags, subResult_self, bit_false, Nat.add_zero, Nat.lt_irrefl, decide_false]
  rfl

theorem logicFlags_zero (f : Flags) : logicFlags 0 f = Flags.ofZero := rfl

/-- The addition path writes no register but A. -/
theorem aluAdd_reg_of_ne {q : Reg8} (h : q ≠ .a) (v : Byte) (c : Bool) (s : State) : (aluAdd v c s).reg q = s.reg q :=
  (State.reg_setReg s .a q _).trans (if_neg h)

/-- Subtracting what was added, with the same carry, restores every register. -/
theorem aluSub_aluAdd_sameRegs (v : Byte) (c : Bool) (s : State) : SameRegsBut s (aluSub v c (aluAdd v c s)) [] := by
  intro q _
  by_cases hq : q = .a
  · subst hq
    exact subResult_addResult s.regs.a v c
  · exact (State.reg_setReg (aluAdd v c s) .a q _).trans ((if_neg hq).trans (aluAdd_reg_of_ne hq v c s))

theorem exec_xraR_a (s : State) : exec (.xraR .a) s = complete (.xraR .a) false (aluLogic 0 s) :=
  congrArg (fun r => complete (.xraR .a) false (aluLogic r s)) (BitVec.xor_self (x := s.regs.a))

theorem exec_anaR_a (s : State) : exec (.anaR .a) s = complete (.anaR .a) false (aluLogic s.regs.a s) :=
  congrArg (fun r => complete (.anaR .a) false (aluLogic r s)) (BitVec.and_self (x := s.regs.a))

theorem exec_oraR_a (s : State) : exec (.oraR .a) s = complete (.oraR .a) false (aluLogic s.regs.a s) :=
  congrArg (fun r => complete (.oraR .a) false (aluLogic r s)) (BitVec.or_self (x := s.regs.a))

/-- Settles O25: ADD leaves its register for SUB to read, so `aluSub_aluAdd_sameRegs` applies; the others are passes
through the subtraction and the logic path with both operands A. -/
theorem arithmeticIdentities : Obligations.ArithmeticIdentities := by
  intro s
  refine ⟨fun r hr => ?_, List.forall_mem_cons.2 ⟨?_, List.forall_mem_singleton.2 ?_⟩,
    List.forall_mem_cons.2 ⟨?_, List.forall_mem_singleton.2 ?_⟩⟩
  · have hback : SameRegsBut s (aluSub ((aluAdd (s.reg r) false s).reg r) false (aluAdd (s.reg r) false s)) [] := by
      rw [aluAdd_reg_of_ne hr]
      exact aluSub_aluAdd_sameRegs (s.reg r) false s
    exact ⟨_, _, rfl, rfl, hback⟩
  · exact ⟨_, rfl, subResult_self s.regs.a, subFlags_self s.regs.a s.flags⟩
  · exact ⟨_, exec_xraR_a s, rfl, logicFlags_zero s.flags⟩
  · exact ⟨_, exec_anaR_a s, rfl, zspOf_zsp _ _, rfl, rfl⟩
  · exact ⟨_, exec_oraR_a s, rfl, zspOf_zsp _ _, rfl, rfl⟩

end Sys2Proof.Machine
end

section
/-! Register-pair arithmetic (R180 to R182): each instruction is one write of a pair, whose word wraps modulo 65536;
DAD also writes CY. -/

namespace Sys2Proof.Machine

/-! ### Opcodes of the pair arithmetic -/

theorem encode_inx (pp : RegPair) : encode (.inx pp) = [BitVec.ofNat 8 (0x03 + 16 * pp.code.toNat)] :=
  congrArg ([·]) (pairByte_eq_ofNat (Nat.add_right_comm 0 _ 3))

theorem encode_dcx (pp : RegPair) : encode (.dcx pp) = [BitVec.ofNat 8 (0x0B + 16 * pp.code.toNat)] :=
  congrArg ([·]) (pairByte_eq_ofNat (Nat.add_right_comm 0 _ 11))

theorem encode_dad (pp : RegPair) : encode (.dad pp) = [BitVec.ofNat 8 (0x09 + 16 * pp.code.toNat)] :=
  congrArg ([·]) (pairByte_eq_ofNat (Nat.add_right_comm 0 _ 9))

/-! ### The words written -/

/-- The one place where a 16-bit value of the machine wraps: a sum with a pair is taken modulo 65536 (R63). -/
theorem State.pair_add_toNat (s : State) (pp : RegPair) (w : Word) :
    (s.pair pp + w).toNat = (pairValue s pp + w.toNat) % 65536 := by
  rw [BitVec.toNat_add, State.pair_toNat]

/-- One less is 65535 more, modulo 65536 (R181). -/
theorem State.pair_sub_one_toNat (s : State) (pp : RegPair) :
    (s.pair pp - 1).toNat = (pairValue s pp + 65535) % 65536 := by
  rw [BitVec.sub_eq_add_neg, State.pair_add_toNat]
  rfl

/-- Settles O26: both are one pair write, `putsInPair_of_setPair`, of the word above or below the pair's. -/
theorem inxAndDcxWrap : Obligations.InxAndDcxWrap := by
  refine fun s pp => ⟨encode_inx pp, encode_dcx pp, ?_, ?_⟩
  · have hvalue : (s.pair pp + 1).toNat = (pairValue s pp + 1) % 65536 := s.pair_add_toNat pp 1
    rw [← hvalue]
    exact putsInPair_of_setPair rfl
  · rw [← State.pair_sub_one_toNat]
    exact putsInPair_of_setPair rfl

/-! ### The addition to HL (R182) -/

/-- HL after the addition: the sum modulo 65536. -/
theorem pairValue_hl_addToHL (w : Word) (s : State) :
    pairValue (addToHL w s) .hl = (pairValue s .hl + w.toNat) % 65536 := by
  have hback : (addToHL w s).pair .hl = s.pair .hl + w := State.pair_setPair s .hl _
  rw [← State.pair_toNat, hback, State.pair_add_toNat]

/-- CY after the addition: the carry out of bit 15. -/
theorem addToHL_cy (w : Word) (s : State) :
    (addToHL w s).flags.cy = true ↔ 65535 < pairValue s .hl + w.toNat := by
  rw [← State.pair_toNat]
  exact decide_eq_true_iff

/-- The addition writes no register but H and L. -/
theorem addToHL_sameRegsBut (w : Word) (s : State) : SameRegsBut s (addToHL w s) [.h, .l] :=
  ((sameRegsBut_refl s [.h, .l]).setReg (by simp) (hi8 (s.hl + w))).setReg (by simp) (lo8 (s.hl + w))

/-- Settles O27: DAD is `addToHL` of the pair's word; `State.pair_toNat` turns that word into the pair's value. -/
theorem dadAddsToHL : Obligations.DadAddsToHL := by
  intro s pp
  have hvalue := pairValue_hl_addToHL (s.pair pp) s
  have hcy := addToHL_cy (s.pair pp) s
  rw [State.pair_toNat] at hvalue hcy
  exact ⟨encode_dad pp, _, rfl, hvalue, hcy, rfl, rfl, rfl, rfl, addToHL_sameRegsBut (s.pair pp) s, rfl, rfl,
    fun _ => rfl, rfl, rfl, rfl, rfl⟩

end Sys2Proof.Machine
end

section
/-! The stack (R190 to R197): a push stores two bytes below SP, a pop reads two bytes at SP, and a pop right after a
push answers the word pushed. -/

namespace Sys2Proof.Machine

/-! ### Push (R190, R192, R193) -/

/-- The state after a push that did not fault, with PC at `target`: PUSH keeps PC. -/
def State.pushed (s : State) (w target : Word) : State :=
  ((s.setBytes (pushedBytes w s)).setSp (s.sp - 2)).setPc target

theorem push16_eq_pushed (w : Word) (s : State) :
    push16 w s =
      if s.sp.toNat < 2 then .error (.addressFault ((s.sp.toNat : Int) - 2)) else .ok (s.pushed w s.pc) :=
  push16_eq w s

theorem State.byteAt_pushed_sub_two (s : State) (w target : Word) :
    (s.pushed w target).byteAt (s.sp - 2) = lo8 w :=
  State.byteAt_setBytes_of_mem (x := (s.sp - 2, lo8 w)) s (pushedBytes_nodup w s) (by simp [pushedBytes])

theorem State.byteAt_pushed_sub_one (s : State) (w target : Word) :
    (s.pushed w target).byteAt (s.sp - 1) = hi8 w :=
  State.byteAt_setBytes_of_mem (x := (s.sp - 1, hi8 w)) s (pushedBytes_nodup w s) (by simp [pushedBytes])

/-- Every instruction whose operation is a push, with PC at `target` after it (R190, R211). -/
theorem pushesBytes_of_pushed {i : Instr} {s : State} {k : Bool} {w target : Word}
    (h : exec i s = completeOrFault i k
      (if s.sp.toNat < 2 then .error (.addressFault ((s.sp.toNat : Int) - 2)) else .ok (s.pushed w target))) :
    PushesBytes i s (hi8 w).toNat (lo8 w).toNat target := by
  refine ⟨fun hs => ?_, fun hs => ?_⟩
  · rw [if_neg (Nat.not_lt.2 hs)] at h
    exact ⟨_, h, BitVec.toNat_sub_of_le hs, rfl, congrArg BitVec.toNat (s.byteAt_pushed_sub_two w target),
      congrArg BitVec.toNat (s.byteAt_pushed_sub_one w target), fun _ ha => State.byteAt_setBytes_of_notMem s ha,
      sameRegsBut_refl s [], rfl, rfl, rfl, rfl, rfl⟩
  · rw [if_pos hs] at h
    exact h

theorem pushesBytes_of_push16 {i : Instr} {s : State} {hi lo : Byte}
    (h : exec i s = completeOrFault i false (push16 (word hi lo) s)) : PushesBytes i s hi.toNat lo.toNat s.pc := by
  rw [push16_eq_pushed] at h
  have hpush := pushesBytes_of_pushed h
  rwa [hi8_word, lo8_word] at hpush

/-- Settles O28: each PUSH is `push16` of a word of two bytes, `pushesBytes_of_push16`; `packF_toNat` gives the flag
byte's value. -/
theorem pushStoresTheWordBelowSP : Obligations.PushStoresTheWordBelowSP := fun s =>
  ⟨⟨rfl, pushesBytes_of_push16 rfl⟩, ⟨rfl, pushesBytes_of_push16 rfl⟩, ⟨rfl, pushesBytes_of_push16 rfl⟩,
    ⟨rfl, packF_toNat s.flags ▸ pushesBytes_of_push16 rfl⟩⟩

/-! ### Pop (R191, R194, R195) -/

/-- Every instruction whose operation is a pop into the state `u`, from what `u` makes of the two bytes (R191, R221). -/
theorem popsBytes_of_popped {i : Instr} {s u : State} {k : Bool} {effect : State → Byte → Byte → Prop}
    (h : exec i s = completeOrFault i k
      (if 0xFFFE ≤ s.sp.toNat then .error (.addressFault 0x10000) else .ok u))
    (hsp : u.sp = s.sp + 2) (hmem : u.mem = s.mem) (hrest : SameRest s u)
    (heffect : ∀ r, effect (u.setReport r) (s.byteAt (s.sp + 1)) (s.byteAt s.sp)) : PopsBytes i s effect := by
  refine ⟨fun hs => ?_, fun hs => ?_⟩
  · rw [if_neg (Nat.not_le.2 hs)] at h
    have hup : u.sp.toNat = s.sp.toNat + 2 := by
      rw [hsp]
      exact BitVec.toNat_add_of_lt (Nat.add_lt_add_right hs 2)
    exact ⟨_, h, hup, fun a => congrArg (memGet · a.toNat) hmem, hrest, heffect _⟩
  · rw [if_pos hs] at h
    exact h

@[simp] theorem popPut_sp (i : Instr) (s : State) (w : Word) : (popPut i s w).sp = s.sp := by
  rw [popPut.eq_def]
  split <;> rfl

@[simp] theorem popPut_ie (i : Instr) (s : State) (w : Word) : (popPut i s w).ie = s.ie := by
  rw [popPut.eq_def]
  split <;> rfl

theorem popsBytes_of_popPut {i : Instr} (hi : i ∈ [Instr.popB, .popD, .popH, .popPsw]) {s : State}
    {effect : State → Byte → Byte → Prop}
    (heffect : ∀ r, effect ((popPut i (s.setSp (s.sp + 2)) (word (s.byteAt (s.sp + 1)) (s.byteAt s.sp))).setReport r)
      (s.byteAt (s.sp + 1)) (s.byteAt s.sp)) : PopsBytes i s effect := by
  have h := exec_pop hi s
  rw [popOperation_eq] at h
  obtain ⟨hmem, hports⟩ := popPut_storesOnly i (s.setSp (s.sp + 2)) (word (s.byteAt (s.sp + 1)) (s.byteAt s.sp))
  exact popsBytes_of_popped h (popPut_sp i _ _) hmem ⟨popPut_ie i _ _, hports⟩ heffect

/-- The halves of a word written to two registers leave the others as they are (R22). -/
theorem sameRegsBut_setReg_setReg (s : State) (hi lo : Reg8) (v w : Byte) :
    SameRegsBut s ((s.setReg hi v).setReg lo w) [hi, lo] :=
  ((sameRegsBut_refl s _).setReg (by simp) v).setReg (by simp) w

/-- Settles O29: each POP is `popPut` of the little-endian word at SP, `popsBytes_of_popPut`; its halves are the two
bytes again. -/
theorem popLoadsTheWordAtSP : Obligations.PopLoadsTheWordAtSP := by
  intro s
  refine ⟨⟨rfl, popsBytes_of_popPut (by simp) fun _ => ?_⟩, ⟨rfl, popsBytes_of_popPut (by simp) fun _ => ?_⟩,
    ⟨rfl, popsBytes_of_popPut (by simp) fun _ => ?_⟩, ⟨rfl, popsBytes_of_popPut (by simp) fun _ => ?_⟩⟩
  · exact ⟨hi8_word _ _, lo8_word _ _, sameRegsBut_setReg_setReg s .b .c _ _, rfl, rfl⟩
  · exact ⟨hi8_word _ _, lo8_word _ _, sameRegsBut_setReg_setReg s .d .e _ _, rfl, rfl⟩
  · exact ⟨hi8_word _ _, lo8_word _ _, sameRegsBut_setReg_setReg s .h .l _ _, rfl, rfl⟩
  · have hframe := (sameRegsBut_refl s [.a]).setReg (List.mem_singleton_self Reg8.a)
    have hflags (k : Nat) := congrArg (BitVec.getLsbD · k) (lo8_word (s.byteAt (s.sp + 1)) (s.byteAt s.sp))
    exact ⟨hi8_word _ _, hframe _, rfl, hflags 7, hflags 6, hflags 4, hflags 2, hflags 0⟩

/-! ### A push and then a pop -/

/-- The pop right after a push, whatever was reported between them: the word pushed, and SP as before the push. -/
theorem pop16_pushed {s : State} (hs : 2 ≤ s.sp.toNat) (w target : Word) (r : Option StepReport) :
    pop16 ((s.pushed w target).setReport r) = .ok (w, ((s.pushed w target).setReport r).setSp s.sp) := by
  have hlow : ¬ 0xFFFE ≤ (s.sp - 2).toNat := by
    have := s.sp.isLt
    have hsub : (s.sp - 2).toNat = s.sp.toNat - 2 := BitVec.toNat_sub_of_le hs
    omega
  have hnext : s.sp - 2 + 1 = s.sp - 1 := by bv_omega
  have hword : word ((s.pushed w target).byteAt (s.sp - 2 + 1)) ((s.pushed w target).byteAt (s.sp - 2)) = w := by
    rw [hnext, State.byteAt_pushed_sub_one, State.byteAt_pushed_sub_two, word_hi8_lo8]
  have hsp : s.sp - 2 + 2 = s.sp := BitVec.sub_add_cancel s.sp 2
  calc pop16 ((s.pushed w target).setReport r)
    _ = .ok (word ((s.pushed w target).byteAt (s.sp - 2 + 1)) ((s.pushed w target).byteAt (s.sp - 2)),
          ((s.pushed w target).setReport r).setSp (s.sp - 2 + 2)) := (pop16_eq _).trans (if_neg hlow)
    _ = .ok (w, ((s.pushed w target).setReport r).setSp s.sp) := by rw [hword, hsp]

/-- A PUSH and then any POP: the pop puts the word pushed, in a state that differs from that before the push in its
memory and its report alone. -/
theorem exec_pop_after_push {i j : Instr} {s : State} {w : Word} (hs : 2 ≤ s.sp.toNat)
    (hi : exec i s = completeOrFault i false (push16 w s)) (hj : j ∈ [Instr.popB, .popD, .popH, .popPsw]) :
    ∃ t, exec i s = .next t ∧ t.regs = s.regs ∧ t.flags = s.flags ∧
      exec j t = complete j false (popPut j (t.setSp s.sp) w) := by
  rw [push16_eq_pushed, if_neg (Nat.not_lt.2 hs)] at hi
  refine ⟨_, hi, rfl, rfl, ?_⟩
  rw [exec_pop hj, popOperation, pop16_pushed hs]
  rfl

theorem exec_push_pair {x : Instr × RegPair} (hx : x ∈ [(Instr.pushB, RegPair.bc), (.pushD, .de), (.pushH, .hl)])
    (s : State) : exec x.1 s = completeOrFault x.1 false (push16 (s.pair x.2) s) := by
  simp only [List.mem_cons, List.not_mem_nil, or_false] at hx
  rcases hx with rfl | rfl | rfl <;> rfl

theorem popPut_pair {y : Instr × RegPair} (hy : y ∈ [(Instr.popB, RegPair.bc), (.popD, .de), (.popH, .hl)])
    (s : State) (w : Word) : popPut y.1 s w = s.setPair y.2 w := by
  simp only [List.mem_cons, List.not_mem_nil, or_false] at hy
  rcases hy with rfl | rfl | rfl <;> rfl

theorem mem_pops_of_pair {y : Instr × RegPair} (hy : y ∈ [(Instr.popB, RegPair.bc), (.popD, .de), (.popH, .hl)]) :
    y.1 ∈ [Instr.popB, .popD, .popH, .popPsw] :=
  (by decide : ∀ y ∈ [(Instr.popB, RegPair.bc), (.popD, .de), (.popH, .hl)],
    y.1 ∈ [Instr.popB, .popD, .popH, .popPsw]) y hy

/-- PSW written with the PSW of a state whose registers are the same: its flags alone (R23, R28). -/
theorem State.setPsw_psw {s t : State} (h : s.regs = t.regs) : s.setPsw t.psw = s.setFlags t.flags := by
  simp only [State.setPsw, State.psw, hi8_word, lo8_word, unpackF_packF, ← h]
  rfl

/-- Settles O30: the pop puts the word pushed, `exec_pop_after_push`; a pair, or PSW, reads back as the word written. -/
theorem popUndoesPush : Obligations.PopUndoesPush := by
  refine fun s hs => ⟨fun x hx y hy => ?_, ?_⟩
  · obtain ⟨t, ht, -, hflags, hpop⟩ := exec_pop_after_push hs (exec_push_pair hx s) (mem_pops_of_pair hy)
    have hput := popPut_pair hy (t.setSp s.sp) (s.pair x.2)
    refine ⟨t, _, ht, hpop, ?_, popPut_sp y.1 _ _, ?_⟩
    · exact (congrArg (State.pair · y.2) hput).trans (State.pair_setPair _ y.2 _)
    · exact (congrArg State.flags hput).trans ((State.setPair_flags _ y.2 _).trans hflags)
  · obtain ⟨t, ht, hregs, -, hpop⟩ := exec_pop_after_push (i := .pushPsw) (j := .popPsw) hs rfl (by simp)
    have hput : popPut .popPsw (t.setSp s.sp) s.psw = (t.setSp s.sp).setFlags s.flags := State.setPsw_psw hregs
    rw [hput] at hpop
    exact ⟨t, _, ht, hpop, fun q _ => congrArg (Regs.get · q) hregs, rfl, rfl⟩

/-! ### XTHL and SPHL (R196, R197) -/

/-- XTHL with both bytes in memory: L below H is stored, the word that was there goes to HL (R196). -/
theorem exec_xthl_complete {s : State} (h : s.sp.toNat ≠ 0xFFFF) :
    exec .xthl s = complete .xthl false ((s.setBytes [(s.sp, s.regs.l), (s.sp + 1, s.regs.h)]).setPair .hl
      (word (s.byteAt (s.sp + 1)) (s.byteAt s.sp))) := by
  rw [exec_xthl, memWrite2_eq_setBytes h, wordBytes_hl]
  rfl

/-- Settles O31: below 0xFFFF XTHL is two stores to different addresses and a write of HL, `exec_xthl_complete`; at
0xFFFF its word access faults; SPHL is one write of SP. -/
theorem xthlAndSphlMoveHL : Obligations.XthlAndSphlMoveHL := by
  refine fun s => ⟨rfl, rfl, fun hs => ?_, fun hs => ?_, ?_⟩
  · have hback (x : Word × Byte) (hx : x ∈ [(s.sp, s.regs.l), (s.sp + 1, s.regs.h)]) :
        (s.setBytes [(s.sp, s.regs.l), (s.sp + 1, s.regs.h)]).byteAt x.1 = x.2 :=
      State.byteAt_setBytes_of_mem s (nodup_succ s.sp) hx
    exact ⟨_, exec_xthl_complete hs.ne, lo8_word _ _, hi8_word _ _, hback (s.sp, s.regs.l) (by simp),
      hback (s.sp + 1, s.regs.h) (by simp), fun _ ha => State.byteAt_setBytes_of_notMem s ha,
      sameRegsBut_setReg_setReg s .h .l _ _, rfl, rfl, rfl, rfl, rfl, rfl, rfl⟩
  · rw [exec_xthl, memWrite2_word, if_pos hs]
    rfl
  · rw [← State.pair_toNat]
    exact putsInPair_of_setPair (pp := .sp) rfl

end Sys2Proof.Machine
end

section
/-! Control transfer (R200 to R233): a jump is one write of PC, a call a push of PC, a return a pop into PC; a
conditional form is one of the three where its flag has its value, and nothing elsewhere. -/

namespace Sys2Proof.Machine

/-! ### Conditional instructions (R200) -/

/-- Every conditional instruction, from what its operation `x` does where it is performed: the condition is that the
flag `b` has the value `v`. -/
theorem taken_or_doesNothing {i : Instr} {c : BitVec 3} {s : State} {x : Except Fault State} {b v : Bool} {P : Prop}
    (h : exec i s = completeOrFault i (condHolds c s.flags) (whenHolds c s x)) (hc : condHolds c s.flags = (b == v))
    (htaken : exec i s = completeOrFault i true x → P) : (b = v → P) ∧ (b ≠ v → DoesNothing i s) := by
  refine ⟨fun hb => htaken ?_, fun hb => ?_⟩
  · have hholds : condHolds c s.flags = true := hc.trans (beq_iff_eq.2 hb)
    rw [h, whenHolds, hholds, if_pos rfl]
  · have hfails : condHolds c s.flags = false := hc.trans (beq_eq_false_iff_ne.2 hb)
    rw [whenHolds, hfails, if_neg Bool.false_ne_true] at h
    exact ⟨_, h, sameRegsBut_refl s [], rfl, rfl, rfl, fun _ => rfl, rfl, rfl, rfl, rfl⟩

/-! ### Jumps (R201 to R210, R232) -/

theorem jumpsTo_of_setPc {i : Instr} {s : State} {k : Bool} {w : Word} (h : exec i s = complete i k (s.setPc w)) :
    JumpsTo i s w :=
  ⟨_, h, rfl, sameRegsBut_refl s [], rfl, rfl, fun _ => rfl, rfl, rfl, rfl, rfl⟩

/-- Settles O32: each is one write of PC, `jumpsTo_of_setPc`; the value of HL is `State.pair_toNat`. -/
theorem jumpsSetPC : Obligations.JumpsSetPC := fun s =>
  ⟨fun _ => ⟨rfl, jumpsTo_of_setPc rfl⟩, fun _ => ⟨rfl, jumpsTo_of_setPc rfl⟩,
    rfl, s.hl, s.pair_toNat .hl, jumpsTo_of_setPc rfl⟩

/-- Settles O33: each row is `jumpIf` of the condition code that tests its flag, so `taken_or_doesNothing`. -/
theorem conditionalJumpsTestTheirFlag : Obligations.ConditionalJumpsTestTheirFlag := by
  intro s w x hx
  simp only [List.mem_cons, List.not_mem_nil, or_false] at hx
  rcases hx with rfl | rfl | rfl | rfl | rfl | rfl | rfl | rfl <;>
    exact ⟨rfl, taken_or_doesNothing (jumpIf_form _ _ w s) rfl jumpsTo_of_setPc⟩

/-! ### Calls (R211 to R220, R231) -/

theorem callTo_eq_pushed (target : Word) (s : State) :
    callTo target s =
      if s.sp.toNat < 2 then .error (.addressFault ((s.sp.toNat : Int) - 2)) else .ok (s.pushed s.pc target) :=
  callTo_eq target s

/-- Every instruction whose operation is a call pushes PC and goes to the target, whatever IE is (R211, R231). -/
theorem pushesBytes_of_callTo {i : Instr} {s : State} {k : Bool} {target : Word}
    (h : exec i s = completeOrFault i k (callTo target s)) :
    PushesBytes i s (s.pc.toNat / 256) (s.pc.toNat % 256) target := by
  rw [callTo_eq_pushed] at h
  rw [← hi8_toNat, ← lo8_toNat]
  exact pushesBytes_of_pushed h

theorem encode_callAlias (x : BitVec 2) (w : Word) :
    encode (.callAlias x w) = [BitVec.ofNat 8 (0xCD + 16 * x.toNat), lo8 w, hi8 w] :=
  congrArg ([·, lo8 w, hi8 w]) (pairByte_eq_ofNat (Nat.add_right_comm 0xC0 _ 0xD))

theorem encode_rst (n : BitVec 3) : encode (.rst n) = [BitVec.ofNat 8 (0xC7 + 8 * n.toNat)] :=
  congrArg ([·]) (opByte_eq_ofNat (Nat.add_right_comm 0xC0 _ 7))

/-- Settles O34: each is `callTo` of its target, `pushesBytes_of_callTo`, and `callTo` does not look at IE. -/
theorem callsPushPCAndJump : Obligations.CallsPushPCAndJump := fun _ =>
  ⟨fun _ => ⟨rfl, pushesBytes_of_callTo rfl⟩, fun x w => ⟨encode_callAlias x w, pushesBytes_of_callTo rfl⟩,
    fun n => ⟨encode_rst n, pushesBytes_of_callTo rfl⟩⟩

/-- Settles O35: each row is `callIf` of the condition code that tests its flag, so `taken_or_doesNothing`; the counts
are 11 and 17. -/
theorem conditionalCallsTestTheirFlag : Obligations.ConditionalCallsTestTheirFlag := by
  intro s w x hx
  have hcount : 11 < 17 := by decide
  simp only [List.mem_cons, List.not_mem_nil, or_false] at hx
  rcases hx with rfl | rfl | rfl | rfl | rfl | rfl | rfl | rfl <;>
    exact ⟨rfl, hcount, taken_or_doesNothing (callIf_form _ _ w s) rfl pushesBytes_of_callTo⟩

/-! ### Returns (R221 to R230) -/

/-- Every instruction whose operation is a return pops the word at SP into PC (R221). -/
theorem returnsByPop_of_returnFromStack {i : Instr} {s : State} {k : Bool}
    (h : exec i s = completeOrFault i k (returnFromStack s)) : ReturnsByPop i s := by
  rw [returnFromStack_eq] at h
  exact popsBytes_of_popped h rfl rfl ⟨rfl, rfl, rfl, rfl⟩ fun _ => ⟨word_toNat _ _, sameRegsBut_refl s [], rfl⟩

/-- Settles O36: both opcodes are `returnFromStack`. -/
theorem returnsPopIntoPC : Obligations.ReturnsPopIntoPC := fun _ =>
  ⟨⟨rfl, returnsByPop_of_returnFromStack rfl⟩, ⟨rfl, returnsByPop_of_returnFromStack rfl⟩⟩

/-- Settles O37: each row is `returnIf` of the condition code that tests its flag, so `taken_or_doesNothing`; the counts
are 5 and 11. -/
theorem conditionalReturnsTestTheirFlag : Obligations.ConditionalReturnsTestTheirFlag := by
  intro s x hx
  have hcount : 5 < 11 := by decide
  simp only [List.mem_cons, List.not_mem_nil, or_false] at hx
  rcases hx with rfl | rfl | rfl | rfl | rfl | rfl | rfl | rfl <;>
    exact ⟨rfl, hcount, taken_or_doesNothing (returnIf_form _ _ s) rfl returnsByPop_of_returnFromStack⟩

/-! ### A call and then a return (R233) -/

@[simp] theorem State.pushed_regs (s : State) (w target : Word) : (s.pushed w target).regs = s.regs := rfl

@[simp] theorem State.pushed_flags (s : State) (w target : Word) : (s.pushed w target).flags = s.flags := rfl

theorem sameRegsBut_of_regs_eq {s t : State} (h : t.regs = s.regs) (written : List Reg8) : SameRegsBut s t written :=
  fun q _ => congrArg (Regs.get · q) h

/-- The return after a push of `w`, whatever PC is by then: PC is `w` and SP is as before the push. -/
theorem returnFromStack_pushed {s : State} (hs : 2 ≤ s.sp.toNat) (w target : Word) (r : Option StepReport) :
    returnFromStack ((s.pushed w target).setReport r) =
      .ok ((((s.pushed w target).setReport r).setSp s.sp).setPc w) := by
  rw [returnFromStack, pop16_pushed hs]

/-- PC moved after a push: the same push with another target. -/
theorem State.setPc_pushed (s : State) (w target q : Word) (r : Option StepReport) :
    ((s.pushed w target).setReport r).setPc q = (s.pushed w q).setReport r := rfl

theorem exec_call {i : Instr} {w : Word} {x : BitVec 2} {n : BitVec 3}
    (hi : i ∈ [Instr.call w, Instr.callAlias x w, Instr.rst n]) (s : State) :
    ∃ target, exec i s = completeOrFault i false (callTo target s) := by
  simp only [List.mem_cons, List.not_mem_nil, or_false] at hi
  rcases hi with rfl | rfl | rfl
  · exact ⟨w, rfl⟩
  · exact ⟨w, rfl⟩
  · exact ⟨restartAddr n, rfl⟩

theorem exec_ret {j : Instr} (hj : j ∈ [Instr.ret, Instr.retAlias]) (s : State) :
    exec j s = completeOrFault j false (returnFromStack s) := by
  simp only [List.mem_cons, List.not_mem_nil, or_false] at hj
  rcases hj with rfl | rfl <;> rfl

/-- A return that stands at `q`, after a push of `w`: it completes with PC at `w` and SP as before the push. -/
theorem exec_ret_after_push {j : Instr} (hj : j ∈ [Instr.ret, Instr.retAlias]) {s : State} (hs : 2 ≤ s.sp.toNat)
    (w target q : Word) (r : Option StepReport) :
    exec j (((s.pushed w target).setReport r).setPc q) =
      complete j false ((((s.pushed w q).setReport r).setSp s.sp).setPc w) := by
  rw [State.setPc_pushed, exec_ret hj, returnFromStack_pushed hs]
  rfl

/-- Settles O38: the call leaves `State.pushed` of PC, so `exec_ret_after_push` gives PC and SP back; neither
writes a register or a flag. -/
theorem returnComesBackAfterTheCall : Obligations.ReturnComesBackAfterTheCall := by
  intro s w q x n hs i hi j hj
  obtain ⟨target, hcall⟩ := exec_call hi s
  rw [callTo_eq_pushed, if_neg (Nat.not_lt.2 hs)] at hcall
  refine ⟨_, _, hcall, exec_ret_after_push hj hs s.pc target q _, ?_, ?_, ?_, sameRegsBut_of_regs_eq ?_ []⟩ <;> simp

end Sys2Proof.Machine
end

section
/-! Input, output and machine control (R240 to R246): IN is one write of A, OUT one port event, EI and DI one write of
IE, and HLT, NOP and its aliases change nothing but the report. -/

namespace Sys2Proof.Machine

/-! ### The ports (R57, R240, R241) -/

/-- The answer the host has scheduled is the one it gives (R57, log entry 6). -/
theorem nextAnswer_of_cons {s : State} {v : Byte} {rest : List Byte} (h : s.portAnswers = v :: rest) (n : Byte) :
    nextAnswer n s = v := by
  rw [nextAnswer, h]

/-- A read takes one answer from the host's schedule, where it holds one. -/
theorem portRead_portAnswers (n : Byte) (s : State) : (portRead n s).2.portAnswers = s.portAnswers.tail := rfl

/-- Settles O39: IN writes A in the state `portRead` leaves, whose answer is `nextAnswer_of_cons` where one is
scheduled. -/
theorem inPutsTheHostsAnswerInA : Obligations.InPutsTheHostsAnswerInA := by
  intro s n
  have hanswer (v : Byte) (rest : List Byte) (h : s.portAnswers = v :: rest) :
      nextAnswer n s = v ∧ (portRead n s).2.portAnswers = rest :=
    ⟨nextAnswer_of_cons h n, by rw [portRead_portAnswers, h, List.tail_cons]⟩
  have hnone (h : s.portAnswers = []) : (portRead n s).2.portAnswers = [] := by
    rw [portRead_portAnswers, h, List.tail_nil]
  have hregs : SameRegsBut s ((portRead n s).2.setReg .a (nextAnswer n s)) [.a] :=
    SameRegsBut.setReg (fun _ _ => rfl) (List.mem_singleton_self Reg8.a) _
  exact ⟨rfl, _, rfl, rfl, hanswer, hnone, hregs, rfl, rfl, rfl, fun _ => rfl, rfl, rfl⟩

/-- Settles O40: OUT is `portWrite`, which adds its event and leaves every other field. -/
theorem outHandsAToTheHost : Obligations.OutHandsAToTheHost := fun s _ =>
  ⟨rfl, _, rfl, rfl, rfl, sameRegsBut_refl s [], rfl, rfl, rfl, fun _ => rfl, rfl, rfl⟩

/-! ### EI and DI, and an interrupt right after them (R242, R243, R256) -/

/-- The address of vector v is 8*v itself: it does not wrap (R56). -/
theorem restartAddr_toNat (v : BitVec 3) : (restartAddr v).toNat = 8 * v.toNat := by
  have := v.isLt
  rw [restartAddr, BitVec.toNat_ofNat]
  omega

/-- A delivered interrupt whose push has room: IE cleared, then a push of PC with the vector's address in PC (R256). -/
theorem interrupt_delivered {s : State} (v : BitVec 3) (hie : s.ie = true) (hs : 2 ≤ s.sp.toNat) :
    interrupt v s = .next ((s.setIe false).pushed s.pc (restartAddr v)) := by
  rw [interrupt_enabled v hie, if_neg (Nat.not_lt.2 hs)]
  rfl

/-- Settles O41: each is one write of IE; after EI it is `interrupt_delivered`, after DI `interrupt_disabled`. -/
theorem eiAndDiTakeEffectAtOnce : Obligations.EiAndDiTakeEffectAtOnce := by
  refine fun s => ⟨rfl, rfl, fun x hx => ?_, fun t v ht hs => ?_, fun t v ht => ?_⟩
  · simp only [List.mem_cons, List.not_mem_nil, or_false] at hx
    rcases hx with rfl | rfl <;>
      exact ⟨_, rfl, rfl, sameRegsBut_refl s [], rfl, rfl, rfl, fun _ => rfl, rfl, rfl, rfl⟩
  · cases ht
    exact ⟨_, interrupt_delivered v rfl hs, rfl, restartAddr_toNat v, BitVec.toNat_sub_of_le hs⟩
  · cases ht
    exact interrupt_disabled v rfl

/-! ### HLT and NOP (R244 to R246) -/

theorem encode_nopAlias (x : BitVec 3) : encode (.nopAlias x) = [BitVec.ofNat 8 (8 * x.toNat)] :=
  congrArg ([·]) (opByte_eq_ofNat (Nat.zero_add (8 * x.toNat)))

/-- An instruction whose next state differs by the report alone. -/
theorem doesNothing_of_setReport {i : Instr} {s : State} {r : Option StepReport}
    (h : exec i s = .next (s.setReport r)) : DoesNothing i s :=
  ⟨_, h, sameRegsBut_refl s [], rfl, rfl, rfl, fun _ => rfl, rfl, rfl, rfl, rfl⟩

/-- Halt is reported by HLT alone (R244). -/
theorem exec_halts {i : Instr} {s t : State} (h : exec i s = .next t) : t.halts = true ↔ i = .hlt := by
  have hreport := completedInstructionsReportTheirCount i s t h
  rw [State.halts, hreport]
  exact decide_eq_true_iff

/-- Settles O42: NOP, its aliases and HLT set the report alone, `doesNothing_of_setReport`; who reports halt is
`exec_halts`. -/
theorem haltAndNoOperation : Obligations.HaltAndNoOperation := fun _ =>
  ⟨rfl, rfl, fun x => ⟨encode_nopAlias x, doesNothing_of_setReport rfl⟩, doesNothing_of_setReport rfl,
    doesNothing_of_setReport rfl, fun _ _ => exec_halts⟩

end Sys2Proof.Machine
end

section
/-! Interrupts (R255 to R260): delivered while IE = 1 as a push of PC, dropped while IE = 0, so that of two in a row the
second does nothing; RET takes the machine back to where it was interrupted. -/

namespace Sys2Proof.Machine

/-- Settles O43: a delivery is `State.pushed` of PC with IE clear, `interrupt_delivered`; `interrupt_enabled` gives its
fault, and `interrupt_disabled` the clause on IE = 0. -/
theorem interruptDelivery : Obligations.InterruptDelivery := by
  refine fun s v => ⟨fun hie hs => ?_, fun hie hs => ?_, interrupt_disabled v⟩
  · have hlo := (s.setIe false).byteAt_pushed_sub_two s.pc (restartAddr v)
    have hhi := (s.setIe false).byteAt_pushed_sub_one s.pc (restartAddr v)
    exact ⟨_, interrupt_delivered v hie hs, rfl, restartAddr_toNat v, BitVec.toNat_sub_of_le hs,
      (congrArg BitVec.toNat hlo).trans (lo8_toNat s.pc), (congrArg BitVec.toNat hhi).trans (hi8_toNat s.pc),
      fun _ ha => State.byteAt_setBytes_of_notMem (s.setIe false) ha, sameRegsBut_refl s [], rfl, rfl, rfl, rfl, rfl⟩
  · rw [interrupt_enabled v hie, if_pos hs]

/-- With an interrupt next and IE = 0, a step takes the action off the host's list and clears the report (R257). -/
theorem step_of_interrupt_disabled {s : State} {v : BitVec 3} {rest : List HostAction}
    (h : s.hostActions = .interrupt v :: rest) (hie : s.ie = false) :
    step s = .next ((s.setHostActions rest).setReport none) := by
  rw [step_of_interrupt h]
  exact interrupt_disabled v hie

/-- Settles O44: `step_of_interrupt_disabled`. -/
theorem interruptWithIEClearIsDropped : Obligations.InterruptWithIEClearIsDropped :=
  fun _ _ _ => step_of_interrupt_disabled

/-- Settles O45: the first step is a delivery, which leaves IE at 0, so the second is `step_of_interrupt_disabled`. -/
theorem secondInterruptInARowHasNoEffect : Obligations.SecondInterruptInARowHasNoEffect := by
  intro s v u rest hact hie hs
  have hfirst := (step_of_interrupt hact).trans (interrupt_delivered v hie hs)
  exact ⟨_, _, hfirst, step_of_interrupt_disabled rfl rfl, restartAddr_toNat v, rfl, rfl, sameRegsBut_refl _ [], rfl,
    fun _ => rfl, rfl⟩

/-- Settles O46: the delivery leaves `State.pushed` of PC with IE clear, so `exec_ret_after_push` gives PC and SP back;
neither writes a register or a flag, and RET keeps IE. -/
theorem returnFromInterruptRestoresPC : Obligations.ReturnFromInterruptRestoresPC := by
  intro s v q hie hs
  have hret := exec_ret_after_push (j := .ret) (s := s.setIe false) (by simp) hs s.pc (restartAddr v) q s.report
  exact ⟨_, _, interrupt_delivered v hie hs, hret, rfl, rfl, rfl, rfl, sameRegsBut_refl s []⟩

end Sys2Proof.Machine
end

section
/-! Faults (R250, R251, R253): the table of R63 says of every instruction, and of every step, whether it answers a fault
and which; where it names none there is a next state, so that nothing is ever refused. -/

namespace Sys2Proof.Machine

/-- The outcome is the fault that is named, or a next state where none is. -/
def Answers (y : Result) (f : Option Fault) : Prop :=
  match f with
  | some e => y = .fault e
  | none => ∃ t, y = .next t

theorem Answers.fault_iff {f : Option Fault} {y : Result} (h : Answers y f) (e : Fault) :
    y = .fault e ↔ f = some e := by
  cases f with
  | none =>
    obtain ⟨t, rfl⟩ := h
    exact ⟨nofun, nofun⟩
  | some e' =>
    cases h
    exact ⟨fun heq => congrArg some (Host.Outcome.fault.inj heq), fun heq => congrArg _ (Option.some.inj heq)⟩

theorem Answers.ne_refused {f : Option Fault} {y : Result} (h : Answers y f) (r : Refusal) : y ≠ .refused r := by
  cases f with
  | none =>
    obtain ⟨t, rfl⟩ := h
    exact nofun
  | some e =>
    cases h
    exact nofun

/-! ### How an instruction completes or faults -/

theorem complete_answers (i : Instr) (k : Bool) (u : State) : Answers (complete i k u) none := ⟨_, rfl⟩

/-- An operation that faults exactly under a condition. -/
theorem completeOrFault_answers {i : Instr} {k : Bool} {x : Except Fault State} {p : Prop} [Decidable p] {e : Fault}
    {u : State} (h : x = if p then .error e else .ok u) :
    Answers (completeOrFault i k x) (if p then some e else none) := by
  subst h
  by_cases hp : p
  · rw [if_pos hp, if_pos hp]
    rfl
  · rw [if_neg hp, if_neg hp]
    exact complete_answers i k u

theorem jumpIf_answers (i : Instr) (c : BitVec 3) (w : Word) (s : State) : Answers (jumpIf i c w s) none := by
  rw [jumpIf]
  split <;> exact complete_answers i _ _

/-- A conditional operation faults where its condition holds and the operation faults, and nowhere else (R200). -/
theorem whenHolds_answers {i : Instr} {k : Bool} {c : BitVec 3} {s : State} {x : Except Fault State} {p : Prop}
    [Decidable p] {e : Fault} {u : State} (h : x = if p then .error e else .ok u) :
    Answers (completeOrFault i k (whenHolds c s x))
      (if condHolds c s.flags then if p then some e else none else none) := by
  rw [whenHolds]
  by_cases hc : condHolds c s.flags = true
  · rw [if_pos hc, if_pos hc]
    exact completeOrFault_answers h
  · rw [if_neg hc, if_neg hc]
    exact complete_answers i k s

theorem callIf_answers (i : Instr) (c : BitVec 3) (w : Word) (s : State) :
    Answers (callIf i c w s) (if condHolds c s.flags then
      if s.sp.toNat < 2 then some (.addressFault ((s.sp.toNat : Int) - 2)) else none else none) := by
  rw [callIf_form]
  exact whenHolds_answers (callTo_eq w s)

theorem returnIf_answers (i : Instr) (c : BitVec 3) (s : State) :
    Answers (returnIf i c s) (if condHolds c s.flags then
      if 0xFFFE ≤ s.sp.toNat then some (.addressFault 0x10000) else none else none) := by
  rw [returnIf_form]
  exact whenHolds_answers (returnFromStack_eq s)

/-- Every instruction faults exactly where `operationFault` names a fault, and completes elsewhere (R63, R251, R253). -/
theorem exec_answers (i : Instr) (s : State) : Answers (exec i s) (operationFault i s) := by
  cases i with
  | jnz w | jz w | jnc w | jc w | jpo w | jpe w | jp w | jm w => exact jumpIf_answers _ _ w s
  | cnz w | cz w | cnc w | cc w | cpo w | cpe w | cp w | cm w => exact callIf_answers _ _ w s
  | rnz | rz | rnc | rc | rpo | rpe | rp | rm => exact returnIf_answers _ _ s
  | call w | callAlias _ w => exact completeOrFault_answers (callTo_eq w s)
  | rst n => exact completeOrFault_answers (callTo_eq (restartAddr n) s)
  | ret | retAlias => exact completeOrFault_answers (returnFromStack_eq s)
  | pushB | pushD | pushH | pushPsw => exact completeOrFault_answers (push16_eq _ s)
  | popB | popD | popH | popPsw =>
    rw [exec_pop (by decide)]
    exact completeOrFault_answers (popOperation_eq _ s)
  | shld w => exact completeOrFault_answers (memWrite2_word w s.hl s)
  | lhld w =>
    rw [exec_lhld, memRead2_word, apply_ite (Except.map _)]
    exact completeOrFault_answers rfl
  | xthl =>
    rw [exec_xthl, memWrite2_word, apply_ite (Except.map _)]
    exact completeOrFault_answers rfl
  | hlt => exact (⟨_, rfl⟩ : ∃ t, completeHalt .hlt s = .next t)
  | _ => exact complete_answers _ false _

/-! ### A step -/

/-- A delivery faults where its push does; with IE = 0 there is none (R251, R256). -/
theorem interrupt_answers (v : BitVec 3) (s : State) :
    Answers (interrupt v s)
      (if s.ie ∧ s.sp.toNat < 2 then some (.addressFault ((s.sp.toNat : Int) - 2)) else none) := by
  cases hie : s.ie with
  | false =>
    rw [interrupt_disabled v hie, if_neg nofun]
    exact ⟨s, rfl⟩
  | true =>
    rw [interrupt_enabled v hie]
    by_cases hs : s.sp.toNat < 2
    · rw [if_pos hs, if_pos ⟨rfl, hs⟩]
      rfl
    · rw [if_neg hs, if_neg (hs ·.2)]
      exact ⟨_, rfl⟩

/-- One instruction faults in fetch, and where the fetch has all its bytes as its operation does (R78, R251): the
operation's fault does not depend on PC, which the fetch has moved. -/
theorem runInstr_answers (s : State) :
    Answers (runInstr s) (if 0xFFFF < s.pc.toNat + opLength (s.byteAt s.pc) then some (.addressFault 0x10000)
      else operationFault (instrOf (s.byteAt s.pc) (s.byteAt (s.pc + 1)) (s.byteAt (s.pc + 2))) s) := by
  rw [runInstr, fetchInstr_eq]
  by_cases h : 0xFFFF < s.pc.toNat + opLength (s.byteAt s.pc)
  · rw [if_pos h, if_pos h]
    rfl
  · rw [if_neg h, if_neg h]
    exact exec_answers _ (s.setPc _)

/-- Every step faults exactly where `stepFault` names a fault, and has a next state elsewhere (R251, R253). -/
theorem step_answers (s : State) : Answers (step s) (stepFault s) := by
  rw [step, nextAction_eq, stepFault]
  rcases s.hostActions with - | ⟨- | v, l⟩
  · exact runInstr_answers ((s.setHostActions []).setReport none)
  · exact runInstr_answers ((s.setHostActions l).setReport none)
  · exact interrupt_answers v ((s.setHostActions l).setReport none)

/-- Settles O49: `step_answers`. -/
theorem stepFaultsExactlyWhereTheTableSays : Obligations.StepFaultsExactlyWhereTheTableSays :=
  fun s => (step_answers s).fault_iff

/-- Settles O50: `step_answers`, whose answer is a fault or a next state. -/
theorem noStepIsRefused : Obligations.NoStepIsRefused :=
  fun s => (step_answers s).ne_refused

end Sys2Proof.Machine
end

section
/-! Memory in canonical form is determined by what it reads (R30, log entry 4): its entries are exactly the addresses
that do not read as `Config.unlistedByte`, each with the byte it reads, and their order is fixed. -/

namespace Sys2Proof.Machine

/-- An address that does not read as an unlisted one is listed, with the byte it reads. -/
theorem mem_of_memGet_ne {m : Memory} {a : Nat} (h : memGet m a ≠ Config.unlistedByte) : (a, memGet m a) ∈ m := by
  induction m with
  | nil => exact absurd rfl h
  | cons x rest ih =>
    rw [memGet] at h ⊢
    by_cases hx : x.1 = a
    · subst hx
      rw [if_pos rfl]
      exact List.mem_cons_self
    · rw [if_neg hx] at h ⊢
      exact List.mem_cons_of_mem x (ih h)

/-- An entry of a sorted memory is what its address reads: no earlier entry has the same address. -/
theorem memGet_of_mem {m : Memory} (hm : m.Pairwise (fun x y => x.1 < y.1)) {x : Host.Cell} (hx : x ∈ m) :
    memGet m x.1 = x.2 := by
  induction m with
  | nil => cases hx
  | cons y rest ih =>
    obtain ⟨hy, hrest⟩ := List.pairwise_cons.1 hm
    rw [memGet]
    rcases List.mem_cons.1 hx with rfl | hx
    · rw [if_pos rfl]
    · rw [if_neg (hy x hx).ne]
      exact ih hrest hx

/-- The entries of a memory in canonical form, said by its reads alone. -/
theorem mem_iff_memGet {m : Memory} (hm : Memory.wf m) (x : Host.Cell) :
    x ∈ m ↔ x.1 < Config.memSize ∧ x.2 ≠ Config.unlistedByte ∧ memGet m x.1 = x.2 := by
  obtain ⟨hsorted, hcells⟩ := hm
  refine ⟨fun hx => ⟨(hcells x hx).1, (hcells x hx).2, memGet_of_mem hsorted hx⟩, fun ⟨_, hv, hget⟩ => ?_⟩
  have hmem := mem_of_memGet_ne (hget.trans_ne hv)
  rwa [hget] at hmem

/-- Two memories sorted by address with the same entries are the same list. -/
theorem eq_of_sorted_of_mem_iff {m n : Memory} (hm : m.Pairwise (fun x y => x.1 < y.1))
    (hn : n.Pairwise (fun x y => x.1 < y.1)) (h : ∀ x, x ∈ m ↔ x ∈ n) : m = n := by
  have : Std.Irrefl (fun x y : Host.Cell => x.1 < y.1) := ⟨fun x => lt_irrefl x.1⟩
  have : Std.Antisymm (fun x y : Host.Cell => x.1 < y.1) := ⟨fun _ _ hxy hyx => absurd hyx hxy.asymm⟩
  exact hm.eq_of_mem_iff hn h

/-- Settles O9: by `mem_iff_memGet` equal reads are equal entries, and their order is the canonical one. -/
theorem equalMemoriesAreEqualData : Obligations.EqualMemoriesAreEqualData := by
  refine fun m n hm hn hread => eq_of_sorted_of_mem_iff hm.1 hn.1 fun x => ?_
  rw [mem_iff_memGet hm, mem_iff_memGet hn]
  exact and_congr_right fun hx => by rw [hread x.1 hx]

end Sys2Proof.Machine
end

section
/-! The invariant `Inv` (log entries 4, 8, 10) holds after reset and is kept by every step: memory changes only by
stores inside the address space, and the report is either cleared or that of the instruction which completed. -/

namespace Sys2Proof.Machine

/-- Settles O57: `reset_mem_wf`, and no report is held after reset. -/
theorem resetMeetsTheInvariant : Obligations.ResetMeetsTheInvariant :=
  ⟨reset_mem_wf, nofun⟩

theorem State.setBytes_wf {s : State} (l : List (Word × Byte)) (h : Memory.wf s.mem) :
    Memory.wf (s.setBytes l).mem := by
  induction l generalizing s with
  | nil => exact h
  | cons x rest ih => exact ih (State.setByte_wf x.1 x.2 h)

/-- An instruction that completes establishes the report part of the invariant, whatever was reported before. -/
theorem exec_inv {i : Instr} {s t : State} (h : exec i s = .next t) (hm : Memory.wf s.mem) : Inv t := by
  refine ⟨?_, fun r hr => ⟨i, taken i s.flags, ?_⟩⟩
  · rw [(exec_mem_hostActions h).1]
    exact State.setBytes_wf _ hm
  · exact Option.some.inj (hr.symm.trans (completedInstructionsReportTheirCount i s t h))

/-- One instruction that completes has fetched some instruction and run it with PC past it (R78). -/
theorem runInstr_next {s t : State} (h : runInstr s = .next t) : ∃ i pc, exec i (s.setPc pc) = .next t := by
  rw [runInstr, fetchInstr_eq] at h
  by_cases hend : 0xFFFF < s.pc.toNat + opLength (s.byteAt s.pc)
  · rw [if_pos hend] at h
    cases h
  · rw [if_neg hend] at h
    exact ⟨_, _, h⟩

/-- A delivery pushes PC and leaves the report alone; with IE = 0 nothing changes (R256). -/
theorem interrupt_inv {v : BitVec 3} {s t : State} (h : interrupt v s = .next t) (hs : Inv s) : Inv t := by
  cases hie : s.ie with
  | false =>
    rw [interrupt_disabled v hie] at h
    cases h
    exact hs
  | true =>
    rw [interrupt_enabled v hie] at h
    obtain ⟨hm, hreport⟩ := hs
    split at h
    · cases h
    · cases h
      exact ⟨State.setByte_wf _ _ (State.setByte_wf _ _ hm), hreport⟩

/-- Settles O58: `interrupt_inv` where the host's next action is an interrupt, `exec_inv` of what was fetched
elsewhere. -/
theorem everyStepKeepsTheInvariant : Obligations.EveryStepKeepsTheInvariant := by
  rintro s t ⟨hm, -⟩ h
  by_cases hact : ∃ v l, s.hostActions = .interrupt v :: l
  · obtain ⟨v, l, hl⟩ := hact
    rw [step_of_interrupt hl] at h
    exact interrupt_inv h ⟨hm, nofun⟩
  · rw [step_of_no_interrupt fun v l hl => hact ⟨v, l, hl⟩] at h
    obtain ⟨i, pc, hexec⟩ := runInstr_next h
    exact exec_inv hexec hm

end Sys2Proof.Machine
end

section
/-! The end of a run (R285): each end of `run` is what the machine's own actions, `core.run`, do up to there. One
induction over the number of actions, on the statement for whichever end the run has. -/

namespace Sys2Proof.Machine

/-! ### One action of the machine, and the rest -/

section
variable {k : Nat} {s t : State} {f : Fault}

theorem core_run_succ_of_next (h : step s = .next t) : core.run (k + 1) s = core.run k t := by
  have hcore : core.step s = .next t := h
  simp only [Host.Core.run, hcore]

theorem core_run_succ_of_fault (h : step s = .fault f) : core.run (k + 1) s = .fault f := by
  have hcore : core.step s = .fault f := h
  simp only [Host.Core.run, hcore]

theorem run_succ_of_next (h : step s = .next t) : run (k + 1) s = if t.halts then .halted t else run k t := by
  rw [run, h]

theorem run_succ_of_fault (h : step s = .fault f) : run (k + 1) s = .faulted f := by
  rw [run, h]

theorem noHaltWithin_zero (s : State) : NoHaltWithin 0 s :=
  fun _ _ hpos hle => absurd hpos (Nat.not_lt.2 hle)

/-- No halt in an action that completes, and none in those after it. -/
theorem noHaltWithin_succ_of_next (h : step s = .next t) (ht : t.halts = false) (hk : NoHaltWithin k t) :
    NoHaltWithin (k + 1) s := by
  intro j u hpos hle hu
  obtain ⟨j, rfl⟩ := Nat.exists_eq_add_one.2 hpos
  rw [core_run_succ_of_next h] at hu
  cases j with
  | zero =>
    cases hu
    exact ht
  | succ j => exact hk (j + 1) u j.succ_pos (Nat.le_of_succ_le_succ hle) hu

/-- A machine that faults at once reports nothing. -/
theorem noHaltWithin_of_fault (h : step s = .fault f) : NoHaltWithin k s := by
  intro j u hpos _ hu
  obtain ⟨j, rfl⟩ := Nat.exists_eq_add_one.2 hpos
  rw [core_run_succ_of_fault h] at hu
  cases hu

end

/-! ### What the end of a run says of the machine -/

/-- What the machine does in its first `k` actions where a run of them ends so (R285). -/
def EndsAs (k : Nat) (s : State) : RunEnd → Prop
  | .halted t => ∃ j, j < k ∧ core.run (j + 1) s = .next t ∧ t.halts = true ∧ NoHaltWithin j s
  | .stopped t => core.run k s = .next t ∧ NoHaltWithin k s
  | .faulted f => core.run k s = .fault f ∧ NoHaltWithin k s
  | .refused _ => False

/-- An action that completes without halt, put before the others, leaves the end as it is. -/
theorem EndsAs.succ_of_next {k : Nat} {s t : State} (h : step s = .next t) (ht : t.halts = false) {e : RunEnd}
    (he : EndsAs k t e) : EndsAs (k + 1) s e := by
  cases e with
  | halted u =>
    obtain ⟨j, hj, hrun, hu, hno⟩ := he
    exact ⟨j + 1, Nat.succ_lt_succ hj, (core_run_succ_of_next h).trans hrun, hu, noHaltWithin_succ_of_next h ht hno⟩
  | stopped u =>
    obtain ⟨hrun, hno⟩ := he
    exact ⟨(core_run_succ_of_next h).trans hrun, noHaltWithin_succ_of_next h ht hno⟩
  | faulted f =>
    obtain ⟨hrun, hno⟩ := he
    exact ⟨(core_run_succ_of_next h).trans hrun, noHaltWithin_succ_of_next h ht hno⟩
  | refused r => exact he

/-- The end of a run is that of the machine's own actions (R285). -/
theorem run_endsAs (k : Nat) (s : State) : EndsAs k s (run k s) := by
  induction k generalizing s with
  | zero => exact ⟨rfl, noHaltWithin_zero s⟩
  | succ k ih =>
    cases h : step s with
    | refused r => exact absurd h (noStepIsRefused s r)
    | fault f =>
      rw [run_succ_of_fault h]
      exact ⟨core_run_succ_of_fault h, noHaltWithin_of_fault h⟩
    | next t =>
      rw [run_succ_of_next h]
      cases ht : t.halts with
      | true => exact ⟨0, k.succ_pos, core_run_succ_of_next h, ht, noHaltWithin_zero s⟩
      | false => exact (ih t).succ_of_next h ht

/-- Settles O60: `run_endsAs`, read off for each end. -/
theorem aRunEndsAtHaltFaultOrStop : Obligations.ARunEndsAtHaltFaultOrStop := by
  intro k s
  have hends {e : RunEnd} (he : run k s = e) : EndsAs k s e := he ▸ run_endsAs k s
  refine ⟨fun _ => hends, fun _ => hends, fun _ => hends, fun hsafe => ?_, fun _ => hends⟩
  cases he : run k s with
  | halted t => exact ⟨t, .inl rfl⟩
  | stopped t => exact ⟨t, .inr rfl⟩
  | faulted f => exact absurd (hends he).1 (hsafe f)
  | refused r => exact (hends he).elim

end Sys2Proof.Machine
end
